-- ==== Sys2Proof/Word.lean ====
section
/-! DEFINITION. The words of the machine: plain names for the widths the spec uses (00_scope.md R7, R11). -/

namespace Sys2Proof

/-- A 64-bit register value or address (R7, R17, R34). Bit 0 is the least significant bit (R11). -/
abbrev Word := BitVec 64

/-- One byte of the memory behind NVMem (20_memory.md R40). -/
abbrev Byte := BitVec 8

/-- A 32-bit A64 instruction word (30_encoding.md R55). -/
abbrev InstrWord := BitVec 32

end Sys2Proof
end

