-- ==== Sys2Proof/Machine/Record.lean ====
section
/-! DEFINITION. The exception record: what the environment says of one exception (60_exceptions.md R178), and the names it is
made of. Types only. -/

namespace Sys2Proof.Machine

/-- The four Exception levels, the values of PSTATE.EL (60_exceptions.md R223). -/
inductive ExceptionLevel where
  | el0 | el1 | el2 | el3
deriving DecidableEq, Repr, Inhabited

/-- The Execution state an exception is taken from (R178 `from`). -/
inductive ExecState where
  | aarch64 | aarch32
deriving DecidableEq, Repr, Inhabited

/-- The instruction set of the instruction (R178 `iset`). -/
inductive InstrSet where
  | a64 | a32 | t32
deriving DecidableEq, Repr, Inhabited

/-- The length of the instruction (R178 `instr_len`, R60). -/
inductive InstrLen where
  | bits16 | bits32
deriving DecidableEq, Repr, Inhabited

/-- The exception classes of 60_exceptions.md section 2 (R182 to R212). The two EC values of a "lower" and "same" pair are ONE
class here, because R180(b) lets the levels decide between them. After `brkA64` stand the classes that the page describes and
gives no EC value in this register (R214); they are never taken to EL1. -/
inductive ExcClass where
  /-- R182, unknown reason. -/
  | unknownReason
  /-- R183, trapped WFI or WFE. -/
  | wfx
  /-- R184, trapped MCR or MRC, coproc 0b1111. -/
  | mcrCp15
  /-- R185, trapped MCRR or MRRC, coproc 0b1111. -/
  | mcrrCp15
  /-- R186, trapped MCR or MRC, coproc 0b1110. -/
  | mcrCp14
  /-- R187, trapped LDC or STC. -/
  | ldcStc
  /-- R188, trapped access to SVE, Advanced SIMD or floating-point. -/
  | fpAccess
  /-- R189, trapped MRRC, coproc 0b1110. -/
  | mrrcCp14
  /-- R190, Branch Target Exception. -/
  | branchTarget
  /-- R191, Illegal Execution state. -/
  | illegalState
  /-- R192, SVC in AArch32 state. -/
  | svcA32
  /-- R193, SVC in AArch64 state. -/
  | svcA64
  /-- R194, trapped MSR, MRS or System instruction. -/
  | sysTrap
  /-- R195, trapped access to SVE. -/
  | sveAccess
  /-- R196, R197, Instruction Abort. -/
  | instAbort
  /-- R198, PC alignment fault. -/
  | pcAlignment
  /-- R199, R200, Data Abort. -/
  | dataAbort
  /-- R201, SP alignment fault. -/
  | spAlignment
  /-- R202, trapped floating-point exception from AArch32 state. -/
  | fpExcA32
  /-- R203, trapped floating-point exception from AArch64 state. -/
  | fpExcA64
  /-- R204, SError interrupt. -/
  | sError
  /-- R205, R206, Breakpoint. -/
  | breakpoint
  /-- Vector Catch, which uses the Breakpoint EC values (R147, R205; 90_conflicts.md C3). -/
  | vectorCatch
  /-- R207, R208, Software Step. -/
  | softwareStep
  /-- R209, R210, Watchpoint. -/
  | watchpoint
  /-- R211, BKPT in AArch32 state. -/
  | bkptA32
  /-- R212, BRK in AArch64 state. -/
  | brkA64
  /-- HVC (R90 to R92, R214). -/
  | hvc
  /-- SMC in AArch32 state (R93, R94). -/
  | smcA32
  /-- SMC in AArch64 state (R95, R96). -/
  | smcA64
  /-- IMPLEMENTATION DEFINED exception to EL3 (R101). -/
  | impDefEl3
  /-- Trapped ERET, ERETAA or ERETAB (R102). -/
  | eretTrap
  /-- Trapped Pointer Authentication instruction (R105). -/
  | pacTrap
deriving DecidableEq, Repr, Inhabited

/-- Why an exception of class `sysTrap` arises (R194): a trap, a read of an ID register (ARMv8.4-IDST), or a Cache Speculation
Variant exception (ARMv8.0-CSV2). -/
inductive SysCause where
  | trap | idRegisterRead | cacheSpeculation
deriving DecidableEq, Repr, Inhabited

/-- Which exception-return instruction was trapped (R102). -/
inductive EretKind where
  | eret | eretaa | eretab
deriving DecidableEq, Repr, Inhabited

/-- A register operand as the record gives it: already as its AArch64 view (R178), which of an A64 instruction is its own number (R23);
or as the register descriptor of an AArch32 instruction, which the model maps (R23, R81) [log 17]. -/
inductive RegDesc where
  | view (n : BitVec 5)
  | a32 (r : BitVec 4)
deriving DecidableEq, Repr, Inhabited

/-- The control that traps an access to SVE, Advanced SIMD or floating-point (R188). -/
inductive FpTrapControl where
  | cpacrFpen | cptrEl2Fpen | cptrEl2Tfp | cptrEl3Tfp
deriving DecidableEq, Repr, Inhabited

/-- The environment's inputs that a syndrome depends on beside the record: Debug state (R115, R224), and HCR_EL2.TGE in effect
(R188). -/
structure SyndromeInputs where
  debugState : Bool := false
  tge        : Bool := false
deriving DecidableEq, Repr, Inhabited

/-- One bit for each of the six floating-point exceptions (R135: IDF, IXF, UFF, OFF, DZF, IOF; R136: their enables). -/
structure FpFlags where
  inputDenormal    : Bool := false
  inexact          : Bool := false
  underflow        : Bool := false
  overflow         : Bool := false
  divideByZero     : Bool := false
  invalidOperation : Bool := false
deriving DecidableEq, Repr, Inhabited

/-- What the Data Abort layout says of the access when ISV can be 1 (R115 to R120). It reaches ESR_EL2 only: R129. -/
structure AccessTransfer where
  /-- The instruction is one R115 lists for ESR_EL2. -/
  eligible   : Bool := false
  /-- ISS[23:14] hold a valid syndrome (R115, last clause for the listed cases). -/
  valid      : Bool := false
  /-- Debug state's memory access mode (R115). -/
  accessMode : Bool := false
  sas        : BitVec 2 := 0
  sse        : Bool := false
  srt        : RegDesc := .view 0
  sf         : Bool := false
  ar         : Bool := false
deriving DecidableEq, Repr, Inhabited

/-- The exception record of 60_exceptions.md R178, field by field. A field that the class's rules do not read is ignored.
The fields after `unpredictableAsUndefined` are the model's own, for rules outside R178's table. -/
structure ExceptionRecord where
  cls         : ExcClass := .unknownReason
  target      : ExceptionLevel := .el1
  fromEl      : ExceptionLevel := .el0
  fromState   : ExecState := .aarch64
  iset        : InstrSet := .a64
  instrLen    : InstrLen := .bits32
  conditional : Bool := false
  /-- 0b1110 when no condition applied (R65). -/
  cond        : BitVec 4 := 0b1110
  knownPass   : Bool := false
  isWfe       : Bool := false
  /-- Four bits for MCRR and MRRC (R77); MCR and MRC use the low three (R72). -/
  opc1        : BitVec 4 := 0
  opc2        : BitVec 3 := 0
  crn         : BitVec 4 := 0
  crm         : BitVec 4 := 0
  rt          : RegDesc := .view 0
  rt2         : RegDesc := .view 0
  isRead      : Bool := false
  imm8        : BitVec 8 := 0
  rn          : RegDesc := .view 0
  literal     : Bool := false
  p           : Bool := false
  w           : Bool := false
  add         : Bool := false
  isLoad      : Bool := false
  imm16       : BitVec 16 := 0
  imm24       : BitVec 24 := 0
  /-- The immediate of BRK or BKPT; a T32 BKPT has its low 8 bits only (R158). -/
  imm         : BitVec 16 := 0
  op0         : BitVec 2 := 0
  op1         : BitVec 3 := 0
  op2         : BitVec 3 := 0
  btype       : BitVec 2 := 0
  fsc         : BitVec 6 := 0
  set         : BitVec 2 := 0
  farNotValid : Bool := false
  isExternal  : Bool := false
  stage2      : Bool := false
  s1ptw       : Bool := false
  isCmOrAt    : Bool := false
  isWrite     : Bool := false
  isAtomic    : Bool := false
  readWouldFault : Bool := false
  isVector    : Bool := false
  fpTrapped   : FpFlags := {}
  serrImpdef  : Bool := false
  serrDfsc    : BitVec 6 := 0
  aet         : BitVec 3 := 0
  iesb        : Bool := false
  stepIsv     : Bool := false
  steppedLoadExclusive : Bool := false
  unpredictableAsUndefined : Bool := false
  /-- The AArch32 mode the exception was taken from, the first argument of `A64View` (R23) [log 17]. -/
  mode        : BitVec 5 := 0
  /-- The AArch32 instruction was UNPREDICTABLE (R23). -/
  unpredictable : Bool := false
  /-- The AArch32 registers, each with its mode, that might have been used at the source level (R23) [log 17]. -/
  usable      : List (BitVec 5 × BitVec 4) := []
  /-- The control that traps a floating-point access (R188). -/
  fpControl   : FpTrapControl := .cpacrFpen
  /-- The trapped MRC-format access is a VMRS, whose `reg` field stands in `crn` (R72). -/
  isVmrs      : Bool := false
  sysCause    : SysCause := .trap
  eret        : EretKind := .eret
  transfer    : AccessTransfer := {}
  /-- The fault or watchpoint came from VNCR_EL2 (R121, R153). -/
  vncr        : Bool := false
deriving DecidableEq, Repr, Inhabited

/-- What is wrong with a record that the model does not take (93_implementation_defined.md V4, V5; R180; R182 to R214). -/
inductive RecordProblem where
  /-- The target is EL0, is lower than the source level, or is not implemented (R180(c)). -/
  | target
  /-- The class is not defined without a feature that is absent (R213), or its cause is not (R194). -/
  | classAbsent
  /-- The class has no EC value in this register and the target is EL1 (R214), or is not one of its targets. -/
  | noEcHere
  /-- Execution state, instruction set or length do not fit the class (section 2 of 60_exceptions.md, R60, R215). -/
  | execState
  /-- WFI or WFE taken to EL1 from a level other than EL0 (R183). -/
  | wfxLevel
  /-- A register operand is an AArch32 descriptor and the exception comes from AArch64 state (R23). -/
  | registerForm
  /-- Coproc 0b1110 has a trapped MRRC only, no MCRR (R78, R189). -/
  | direction
  /-- A reserved fault status code (R111, R128). -/
  | faultStatus
  /-- A reserved SET value where SET is reported (R107, R122). -/
  | set
  /-- A reserved SError DFSC or AET value (R141, R143). -/
  | sErrorStatus
  /-- A reserved LDC or STC addressing mode (R83; V5). -/
  | addressingMode
  /-- TFV would be 1 with no trapped exception (R135). -/
  | fpFlags
  /-- The record does not describe the present state: source level, PSTATE.BTYPE, HCR_EL2.NV or HCR_EL2.TGE (R178, R104, R102, R180(d)). -/
  | otherState
deriving DecidableEq, Repr, Inhabited

end Sys2Proof.Machine
end

