-- ==== Sys2Proof/Config.lean ====
section
/-! DEFINITION. What an implementation fixes (00_scope.md R8 to R10) and the free values (10_state.md R30). The parameters that
are plain data are the structure `Params`, which State carries and no step changes, so that a statement about every state is a
statement about every implementation [log 1]. What cannot be data, because it is a function or an oracle, is an opaque constant. -/

namespace Sys2Proof

/-- The parameter CU_RESERVED_EC: what a software write of a reserved EC value does (60_exceptions.md R213, D12). -/
inductive CuReservedEc where
  /-- The model does not step: the spec's default. -/
  | refuse
  /-- The value is held and read back. -/
  | store
  /-- The register becomes UNKNOWN. -/
  | unknown
deriving DecidableEq, Repr, Inhabited

/-- The parameters of R8 (features), R9 (IMPLEMENTATION DEFINED choices that are data) and R10 (the spec's own). -/
structure Params where
  haveEl2     : Bool
  haveEl3     : Bool
  haveAarch32 : Bool
  haveFp      : Bool
  haveSve     : Bool
  haveRas     : Bool
  haveIesb    : Bool
  haveNv      : Bool
  haveNv2     : Bool
  haveBti     : Bool
  haveIdst    : Bool
  haveCsv2    : Bool
  haveTthm    : Bool
  haveFpTraps : Bool
  t32Cv             : Bool
  condPassAsAl      : Bool
  tfvZeroOnVector   : Bool
  smcCcfailTrapped  : Bool
  isvS2WalkExtabt   : Bool
  atomicS1ptwWnr0   : Bool
  res0HiWritable    : Bool
  cuReservedEc      : CuReservedEc
  nvBase            : Word
  nvBigEndian       : Bool
deriving DecidableEq, Repr, Inhabited

/-- The parameters `State.reset` carries. DESIGN CHOICE, unsafe [log 1]: the spec gives none but the default of CU_RESERVED_EC
(R213, D12) [log 8]. -/
def Params.atReset : Params where
  haveEl2 := true
  haveEl3 := true
  haveAarch32 := true
  haveFp := true
  haveSve := true
  haveRas := true
  haveIesb := true
  haveNv := true
  haveNv2 := true
  haveBti := true
  haveIdst := true
  haveCsv2 := true
  haveTthm := true
  haveFpTraps := true
  t32Cv := false
  condPassAsAl := false
  tfvZeroOnVector := false
  smcCcfailTrapped := false
  isvS2WalkExtabt := false
  atomicS1ptwWnr0 := false
  res0HiWritable := false
  cuReservedEc := .refuse
  nvBase := 0
  nvBigEndian := false

/-- The oracle `Unknown(64)` of 10_state.md R30: the n-th draw. Narrower UNKNOWN values are bits of one draw. No body: nothing
can be proved of a draw [log 2]. -/
opaque Config.freeValue : Nat → Word

/-- The order of two accesses that R47 leaves unordered: the n-th choice. No body [log 14]. -/
opaque Config.freeChoice : Nat → Nat

/-- The exception an UNPREDICTABLE instruction treated as UNDEFINED is reported as (10_state.md R28): the n-th draw, used only
where it is a record the rules allow. No body [log 15]. -/
opaque Config.freeRecord : Nat → Machine.ExceptionRecord

/-- EA_CLASS, IMPLEMENTATION DEFINED (00_scope.md R9, 42_iss_aborts.md R109): the EA bit of an External abort [log 25]. -/
opaque Config.eaClass : Machine.ExceptionRecord → BitVec 1

/-- IDS_SYNDROME, IMPLEMENTATION DEFINED (R9, 43_iss_fp_serror_debug.md R139): bits [23:0] of an SError syndrome [log 25]. -/
opaque Config.idsSyndrome : Machine.ExceptionRecord → BitVec 24

/-- `A64View(mode, r)` (10_state.md R23): the AArch64 view of AArch32 register `r` in a mode. The mapping is not in the source, so no
body; no rule asks for it at `r` = 0b1111 [log 17]. -/
opaque Config.a64View : BitVec 5 → BitVec 4 → BitVec 5

/-- IMPDEF_EL3_ISS, IMPLEMENTATION DEFINED (R9, 41_iss_calls_sysreg_misc.md R101) [log 25]. -/
opaque Config.impDefEl3Iss : Machine.ExceptionRecord → BitVec 25

end Sys2Proof
end

