-- ==== Sys2Proof/Syntax.lean ====
section
/-! DEFINITION. The instructions: one constructor per row of spec/opcode_table.json (30_encoding.md R54). -/

namespace Sys2Proof

/-- The three System register names of the assembler forms (R57). They are names, not registers: ESR_EL12 is a second name for
ESR_EL1, and which storage a name reaches is decided at execution (R58, 44_sysreg_access.md R176). -/
inductive EsrName where
  | esrEl1 | esrEl12 | esrEl2
deriving DecidableEq, Repr

/-- The six accessors. The operand is the 5-bit number t of `<Xt>` (R56): 0 to 30 are X0 to X30, 31 is XZR (R57, R34). -/
inductive Instr where
  /-- `MRS <Xt>, ESR_EL1`, R170. -/
  | mrsEsrEl1 (rt : BitVec 5)
  /-- `MSR ESR_EL1, <Xt>`, R171. -/
  | msrEsrEl1 (rt : BitVec 5)
  /-- `MRS <Xt>, ESR_EL12`, R172. -/
  | mrsEsrEl12 (rt : BitVec 5)
  /-- `MSR ESR_EL12, <Xt>`, R173. -/
  | msrEsrEl12 (rt : BitVec 5)
  /-- `MRS <Xt>, ESR_EL2`, R174. -/
  | mrsEsrEl2 (rt : BitVec 5)
  /-- `MSR ESR_EL2, <Xt>`, R175. -/
  | msrEsrEl2 (rt : BitVec 5)
deriving DecidableEq, Repr

end Sys2Proof
end

