-- ==== Sys2Proof/Decode.lean ====
section
/-! DEFINITION. Decoding and encoding of the six accessors (30_encoding.md R54, R55, R58). Decoding is total on 32-bit words and
rejects by name. The spec gives instruction words as 32-bit numbers and leaves the byte order of fetch outside (20_memory.md R41,
R52), so a word is what the decoder reads. The bit positions are R55's, from general knowledge [log 23]. -/

namespace Sys2Proof

/-- Why a word is none of the six (R58, R59; 93_implementation_defined.md V7). -/
inductive DecodeError where
  /-- Bits [31:22] are not 0b1101010100: no MRS or MSR (register). -/
  | notSystemMove
  /-- An MRS or MSR (register) of a System register other than the three tuples of R54. -/
  | otherSystemRegister
deriving DecidableEq, Repr

/-- The field op1 of each name; op0, CRn, CRm and op2 are the same for all three (R54). -/
def EsrName.op1 : EsrName → BitVec 3
  | .esrEl1  => 0b000
  | .esrEl12 => 0b101
  | .esrEl2  => 0b100

/-- op0 of the three tuples (R54). -/
def tupleOp0 : BitVec 2 := 0b11
/-- CRn of the three tuples (R54). -/
def tupleCrn : BitVec 4 := 0b0101
/-- CRm of the three tuples (R54). -/
def tupleCrm : BitVec 4 := 0b0010
/-- op2 of the three tuples (R54). -/
def tupleOp2 : BitVec 3 := 0b000

/-- The name a tuple (op0, op1, CRn, CRm, op2) selects, if any (R54, R58). -/
def nameOfTuple (op0 : BitVec 2) (op1 : BitVec 3) (crn crm : BitVec 4) (op2 : BitVec 3) : Option EsrName :=
  if op0 = tupleOp0 ∧ crn = tupleCrn ∧ crm = tupleCrm ∧ op2 = tupleOp2 then
    if op1 = EsrName.esrEl1.op1 then some .esrEl1
    else if op1 = EsrName.esrEl12.op1 then some .esrEl12
    else if op1 = EsrName.esrEl2.op1 then some .esrEl2
    else none
  else none

/-- The accessor of a name: a read (MRS) or a write (MSR) with operand number `rt` (R54). -/
def accessor (isRead : Bool) (n : EsrName) (rt : BitVec 5) : Instr :=
  match n, isRead with
  | .esrEl1,  true  => .mrsEsrEl1 rt
  | .esrEl1,  false => .msrEsrEl1 rt
  | .esrEl12, true  => .mrsEsrEl12 rt
  | .esrEl12, false => .msrEsrEl12 rt
  | .esrEl2,  true  => .mrsEsrEl2 rt
  | .esrEl2,  false => .msrEsrEl2 rt

/-- The name an accessor is written with (R54). -/
def Instr.name : Instr → EsrName
  | .mrsEsrEl1 _  | .msrEsrEl1 _  => .esrEl1
  | .mrsEsrEl12 _ | .msrEsrEl12 _ => .esrEl12
  | .mrsEsrEl2 _  | .msrEsrEl2 _  => .esrEl2

/-- Whether an accessor is an MRS (R54). -/
def Instr.isRead : Instr → Bool
  | .mrsEsrEl1 _ | .mrsEsrEl12 _ | .mrsEsrEl2 _ => true
  | .msrEsrEl1 _ | .msrEsrEl12 _ | .msrEsrEl2 _ => false

/-- The operand number t of `<Xt>` (R56). -/
def Instr.rt : Instr → BitVec 5
  | .mrsEsrEl1 t | .msrEsrEl1 t | .mrsEsrEl12 t | .msrEsrEl12 t | .mrsEsrEl2 t | .msrEsrEl2 t => t

/-- The fixed bits [31:22] of MRS and MSR (register) (R55). -/
def fixedBits : BitVec 10 := 0b1101010100

/-- Decoding of an instruction word by the fields of R55: L is bit 21, op0 [20:19], op1 [18:16], CRn [15:12], CRm [11:8],
op2 [7:5], Rt [4:0]. -/
def decode (w : InstrWord) : Except DecodeError Instr :=
  if w.extractLsb' 22 10 = fixedBits then
    match nameOfTuple (w.extractLsb' 19 2) (w.extractLsb' 16 3) (w.extractLsb' 12 4) (w.extractLsb' 8 4) (w.extractLsb' 5 3) with
    | some n => .ok (accessor (decide (w.extractLsb' 21 1 = 1)) n (w.extractLsb' 0 5))
    | none => .error .otherSystemRegister
  else .error .notSystemMove

/-- The word of an accessor, written from the fields of R55. -/
def encode (i : Instr) : InstrWord :=
  fixedBits ++ BitVec.ofBool i.isRead ++ tupleOp0 ++ i.name.op1 ++ tupleCrn ++ tupleCrm ++ tupleOp2 ++ i.rt

/-- What the decoder reads from an instruction whose bits are `w`, numbered as spec/opcode_table.json numbers them; bits from
`nbits` up are 0. An instruction is one 32-bit word (R55), so bits above bit 31 make it none of the six. -/
def decodeTableWord (nbits w : Nat) : Option Instr :=
  let v := w % 2 ^ nbits
  if v < 2 ^ 32 then
    match decode (BitVec.ofNat 32 v) with
    | .ok i => some i
    | .error _ => none
  else none

end Sys2Proof
end

