-- ==== Sys2Proof/Machine/State.lean ====
section
/-! DEFINITION. The state of the machine, what can stop it, and reset. Every piece of state the spec gives the machine is here
(10_state.md R17 to R37): the register, the environment state the rules read or write (R33), the parameters of this instance
(00_scope.md R8 to R10), and what the environment presents next. -/

namespace Sys2Proof.Machine

/-- What ESR_EL1 holds: 64 bits, or UNKNOWN (10_state.md R30). -/
inductive EsrContent where
  | known (v : Word)
  | unknown
deriving DecidableEq, Repr

/-- The HCR_EL2 bits the spec names (R33), one bit each; the page gives no positions (R35). -/
structure HcrEl2 where
  trvm : Bool := false
  tvm  : Bool := false
  nv   : Bool := false
  nv1  : Bool := false
  nv2  : Bool := false
  e2h  : Bool := false
  tge  : Bool := false
  tsc  : Bool := false
  hcd  : Bool := false
  api  : Bool := false
deriving DecidableEq, Repr

/-- The control bits R33 names only as causes of exceptions. No rule reads them (R67: the environment evaluates the causes); the
spec gives no width for the two-bit ones [log 29]. -/
structure NamedControls where
  scrHce       : Bool := false
  scrSmd       : Bool := false
  scrApi       : Bool := false
  edscrSdd     : Bool := false
  edscrHde     : Bool := false
  sctlrItd     : Bool := false
  sctlrSed     : Bool := false
  sctlrCp15ben : Bool := false
  spSelSp      : Bool := false
  cpacrFpen    : BitVec 2 := 0
  cpacrZen     : BitVec 2 := 0
  cptrEl2Fpen  : BitVec 2 := 0
  cptrEl2Zen   : BitVec 2 := 0
  cptrEl2Tfp   : Bool := false
  cptrEl2Tz    : Bool := false
  cptrEl3Tfp   : Bool := false
  cptrEl3Ez    : Bool := false
  /-- FPCR.{IDE, IXE, UFE, OFE, DZE, IOE} (R136). -/
  fpcr         : FpFlags := {}
  /-- FPSCR.{IDE, IXE, UFE, OFE, DZE, IOE} (R136). -/
  fpscr        : FpFlags := {}
deriving DecidableEq, Repr

/-- The environment's inputs, sampled at each step (R33, R236). No instruction changes them. -/
structure Env where
  hcr            : HcrEl2 := {}
  /-- `EL2Enabled()`, before the gate of D3. -/
  el2Enabled     : Bool := false
  /-- `ELUsingAArch32(EL2)`, before the gate of D3. -/
  el2UsesAArch32 : Bool := false
  /-- PSTATE.BTYPE (R33, R104). -/
  btype          : BitVec 2 := 0
  /-- In Debug state (R224, D22). -/
  debugState     : Bool := false
  controls       : NamedControls := {}
  /-- The handler address the environment supplies for an entry to EL1 (R163, R231; file 95, PR4) [log 12]. -/
  handlerEl1     : Word := 0
  handlerEl2     : Word := 0
  handlerEl3     : Word := 0
  /-- The fault, if any, that a read of NVMem raises (R44) [log 19]. -/
  nvReadFault    : Option ExceptionRecord := none
  /-- The fault, if any, that a write of NVMem raises (R44) [log 19]. -/
  nvWriteFault   : Option ExceptionRecord := none
deriving DecidableEq, Repr

/-- One access of the EL3 window (R47). Of a read: its destination, whether that register still holds what the read returned, and
whether anything has used it. -/
inductive WindowAccess where
  | write (n : EsrName) (c : EsrContent)
  | read (n : EsrName) (rt : BitVec 5) (holds used : Bool)
deriving DecidableEq, Repr

/-- The unordered window of EL3 accesses to ESR_EL1 by two names (R37(b), R47): the accesses since the last explicit synchronization,
in the order in which they took effect [log 14]. -/
structure El3Window where
  /-- The register's content before the first access of the window; without meaning while `order` is empty. -/
  before : EsrContent := .unknown
  /-- Newest first. The accesses by one name stand in program order. -/
  order  : List WindowAccess := []
deriving DecidableEq, Repr

/-- What an instruction outside this spec leaves: the environment presents its effect (file 95, section 3) [log 22]. -/
structure OtherEffect where
  /-- The general-purpose registers it reads: whether an access of the EL3 window is used by it (R47). -/
  reads  : List (BitVec 5)
  /-- The general-purpose registers it writes, with their values, in order. -/
  writes : List (BitVec 5 × Word)
  pc     : Word
  /-- Bytes it stores, in order. -/
  stores : List (Word × Byte)
deriving DecidableEq, Repr

/-- What the environment supplies at a reset: R228 leaves all of it unconstrained. -/
structure ResetInputs where
  pstateEl        : ExceptionLevel
  pc              : Word
  x               : Vector Word 31
  esrEl2          : Word
  esrEl3          : Word
  preferredReturn : Word
  env             : Env
  /-- The bytes behind NVMem that do not read 0. -/
  bytes           : List (Word × Byte)
deriving DecidableEq, Repr

/-- What the environment presents to one step (R33, D1, D20, D21). -/
inductive Input where
  /-- The instruction word at `pc`, given to the model to execute (R52, D20). -/
  | execute (w : InstrWord)
  /-- `TakeException(rec)`, an SError interrupt among them (R179, R219). -/
  | exception (rec : ExceptionRecord)
  /-- An IRQ or FIQ is taken to a level: an exception without an EC value (R220). -/
  | interrupt (target : ExceptionLevel)
  /-- `ExceptionReturn(from_el)` from the current level (R27, R217); the environment says where it goes [log 33]. -/
  | exceptionReturn (target : ExceptionLevel) (pc : Word)
  /-- Explicit synchronization without an exception: an ISB (R48). -/
  | contextSync
  /-- A write of AArch32 DFSR (R32, D23). -/
  | dfsrWrite (v : BitVec 32)
  /-- The environment's inputs change (R236). -/
  | environment (env : Env)
  /-- An instruction outside this spec has run. -/
  | otherInstruction (e : OtherEffect)
  /-- `Reset()` (R227, R228). -/
  | reset (r : ResetInputs)
deriving DecidableEq, Repr

/-- The memory behind NVMem (20_memory.md R40): address and byte, addresses strictly rising, no byte equal to what an unlisted
address reads as. -/
abbrev Memory := List Host.Cell

/-- What an address that is not listed reads as. DESIGN CHOICE, unsafe [log 7]: the spec gives memory no reset value (R228). -/
def unlistedByte : Byte := 0

/-- The machine's state. `draws` is the model's own: how many UNKNOWN values have been drawn [log 2]. -/
structure State where
  params          : Params
  esrEl1          : EsrContent
  esrEl2          : Word
  esrEl3          : Word
  x               : Vector Word 31
  pc              : Word
  pstateEl        : ExceptionLevel
  preferredReturn : Word
  mem             : Memory
  window          : El3Window
  env             : Env
  inputs          : List Input
  draws           : Nat
deriving DecidableEq, Repr

/-- The machine stops. -/
inductive Fault where
  /-- Raised by `step` when the environment presents nothing (D20: instructions are given to the model). Safe: the model says nothing
  of such a step. -/
  | noInput
deriving DecidableEq, Repr

/-- The model has no next state for the step. All are safe: a claim about the next state cannot use them. -/
inductive Refusal where
  /-- An instruction whose meaning is not written yet. No arm of `exec` answers it. Safe. -/
  | notModelled (mnemonic : String)
  /-- Raised by `step` on a word that is none of the six (R58, R59; V7: "the model refuses"). Safe. -/
  | outsideSpec (e : DecodeError)
  /-- Raised by a software write of a reserved EC value when CU_RESERVED_EC is `refuse` (R213: "the model does not step"). Safe. -/
  | reservedEc (written : Word)
  /-- Raised by an NVMem access when NV_BASE is no multiple of 8 or above 2^64 - 0x140 (R42, R167, D4: "the model refuses"). Safe. -/
  | nvBase
  /-- Raised by an exception record the rules exclude (R111, R128: "the model refuses a record"; V4, V5) [log 18]. Safe. -/
  | badRecord (p : RecordProblem)
  /-- Raised by a write of ESR_EL1 at EL3 with E2H that could take effect before a read by the other name whose value has been used
(R47: "The model either explores both orders or refuses the step"): the model cannot undo the use [log 14]. Safe. -/
  | unordered
  /-- Raised by a DFSR write without AArch32 (R32: "a model that has no AArch32 state omits DFSR"). Safe. -/
  | aarch32Absent
deriving DecidableEq, Repr

/-- The machine right after reset. ESR_EL1 is UNKNOWN (R31, R228). The spec leaves everything else unconstrained: the values here
are DESIGN CHOICE [log 1, 3, 4, 6, 7], the level is PRESUMED [log 5]; all unsafe, and no statement rests on them. -/
def State.reset : State where
  params := Params.atReset
  esrEl1 := .unknown
  esrEl2 := 0
  esrEl3 := 0
  x := Vector.replicate 31 0
  pc := 0
  pstateEl := .el3
  preferredReturn := 0
  mem := []
  window := {}
  env := {}
  inputs := []
  draws := 0

end Sys2Proof.Machine
end

