-- ==== Sys2Proof/Machine/Memory.lean ====
section
/-! DEFINITION. The byte memory behind NVMem (20_memory.md R39 to R43) in its one canonical form, and the 8-byte access. -/

namespace Sys2Proof.Machine

/-- The byte at an address. -/
def Memory.read (m : Memory) (a : Nat) : Byte :=
  match m with
  | [] => unlistedByte
  | c :: rest => if c.1 = a then c.2 else Memory.read rest a

/-- Put a byte in front of a memory, unless it is what an unlisted address reads as. -/
def Memory.consByte (a : Nat) (b : Byte) (m : Memory) : Memory :=
  if b = unlistedByte then m else (a, b) :: m

/-- Write one byte, keeping the canonical form. -/
def Memory.write (m : Memory) (a : Nat) (b : Byte) : Memory :=
  match m with
  | [] => Memory.consByte a b []
  | c :: rest =>
    if a < c.1 then Memory.consByte a b (c :: rest)
    else if a = c.1 then Memory.consByte a b rest
    else c :: Memory.write rest a b

/-- The canonical form: addresses strictly rising and inside the 64-bit space, no byte equal to `unlistedByte`. -/
def Memory.wf (m : Memory) : Bool :=
  match m with
  | [] => true
  | c :: rest =>
    decide (c.1 < 2 ^ 64) && decide (c.2 ≠ unlistedByte) &&
      (match rest with
        | [] => true
        | d :: _ => decide (c.1 < d.1)) && Memory.wf rest

/-- Write bytes one after the other. -/
def Memory.writeAll (m : Memory) : List (Word × Byte) → Memory
  | [] => m
  | (a, b) :: rest => Memory.writeAll (Memory.write m a.toNat b) rest

/-- Which byte of a 64-bit value stands at offset `i` of its cell (R41): the byte at the lowest address holds bits [7:0], or
bits [63:56] when NV_BIGENDIAN. -/
def byteAt (bigEndian : Bool) (v : Word) (i : Nat) : Byte :=
  if bigEndian then v.extractLsb' (8 * (7 - i)) 8 else v.extractLsb' (8 * i) 8

/-- `MemWrite(addr, 8, v)` (R40, R41): the eight bytes of the cell, as one access (R43). -/
def Memory.write64 (bigEndian : Bool) (m : Memory) (a : Nat) (v : Word) : Memory :=
  [0, 1, 2, 3, 4, 5, 6, 7].foldl (fun m i => Memory.write m (a + i) (byteAt bigEndian v i)) m

/-- `MemRead(addr, 8)` (R40, R41). -/
def Memory.read64 (bigEndian : Bool) (m : Memory) (a : Nat) : Word :=
  let b := fun i => Memory.read m (a + (if bigEndian then 7 - i else i))
  b 7 ++ b 6 ++ b 5 ++ b 4 ++ b 3 ++ b 2 ++ b 1 ++ b 0

/-- NV_BASE as R42 and R167 require it: a multiple of 8, at most 2^64 - 0x140. -/
def nvBaseValid (p : Params) : Bool :=
  decide (p.nvBase.toNat % 8 = 0) && decide (p.nvBase.toNat ≤ 2 ^ 64 - 0x140)

/-- The address of the cell `NVMem[0x138]` (R40, R169). -/
def nvAddress (p : Params) : Nat := p.nvBase.toNat + 0x138

end Sys2Proof.Machine
end

