-- ==== Sys2Proof/Machine/Operands.lean ====
section
/-! DEFINITION. The operand `<Xt>` and the inputs the accessors test (10_state.md R33 to R35; 30_encoding.md R56). There is no other
operand form: no immediate, shift, extension or addressing mode (R56). -/

namespace Sys2Proof.Machine

/-- `x[t]`: X0 to X30, and zero for number 31 (R34). -/
def readX (s : State) (t : BitVec 5) : Word :=
  if h : t.toNat < 31 then s.x[t.toNat] else 0

/-- `x[t] <- v`: number 31 discards the value (R34). -/
def writeX (s : State) (t : BitVec 5) (v : Word) : State :=
  if h : t.toNat < 31 then { s with x := s.x.set t.toNat v h } else s

/-- Rank of a level: EL0 is the least privileged (R16). -/
def ExceptionLevel.rank : ExceptionLevel → Nat
  | .el0 => 0
  | .el1 => 1
  | .el2 => 2
  | .el3 => 3

/-- `EL2Enabled()`: false when EL2 is not implemented (R35, D3). -/
def el2Enabled (s : State) : Bool := s.params.haveEl2 && s.env.el2Enabled

/-- `ELUsingAArch32(EL2)`: false when AArch32 is not implemented (D3). -/
def el2UsesAArch32 (s : State) : Bool := s.params.haveAarch32 && s.env.el2UsesAArch32

/-- HCR_EL2.NV, 0 without ARMv8.3-NV (R35). -/
def hcrNv (s : State) : Bool := s.params.haveNv && s.env.hcr.nv

/-- HCR_EL2.NV1, 0 without ARMv8.3-NV (R35). -/
def hcrNv1 (s : State) : Bool := s.params.haveNv && s.env.hcr.nv1

/-- HCR_EL2.NV2, 0 without ARMv8.4-NV (R35). -/
def hcrNv2 (s : State) : Bool := s.params.haveNv2 && s.env.hcr.nv2

/-- HCR_EL2.E2H. The spec names no feature parameter that gates it (R35 guards it nowhere at EL2). -/
def hcrE2h (s : State) : Bool := s.env.hcr.e2h

/-- HCR_EL2.TRVM (R170). -/
def hcrTrvm (s : State) : Bool := s.env.hcr.trvm

/-- HCR_EL2.TVM (R171). -/
def hcrTvm (s : State) : Bool := s.env.hcr.tvm

/-- HCR_EL2.TGE, in effect only while EL2 is enabled (R180(d), TV91). -/
def hcrTge (s : State) : Bool := el2Enabled s && s.env.hcr.tge

/-- The handler address the environment supplies for an entry to a level [log 12]. Nothing is entered at EL0. -/
def handlerOf (s : State) : ExceptionLevel → Word
  | .el0 => s.pc
  | .el1 => s.env.handlerEl1
  | .el2 => s.env.handlerEl2
  | .el3 => s.env.handlerEl3

end Sys2Proof.Machine
end

