-- ==== Sys2Proof/Machine/FaultStatus.lean ====
section
/-! DEFINITION. The fault status codes of Instruction and Data Aborts (42_iss_aborts.md R111, R128), as the tables the spec prints. -/

namespace Sys2Proof.Machine

/-- What a fault status code means; `l` is the lookup level, 0 to 3 (R111, R128). -/
inductive FaultKind where
  | addressSize (l : Fin 4)
  | translation (l : Fin 4)
  | accessFlag (l : Fin 4)
  | permission (l : Fin 4)
  | syncExternal
  | syncTagCheckFail
  | syncExternalOnWalk (l : Fin 4)
  | parityOrEcc
  | parityOrEccOnWalk (l : Fin 4)
  | alignment
  | tlbConflict
  | unsupportedAtomicHwUpdate
  | lockdown
  | unsupportedExclusiveOrAtomic
  | sectionDomain
  | pageDomain
deriving DecidableEq, Repr

/-- The IFSC table (R111). -/
def ifscTable : List (BitVec 6 × FaultKind) :=
  [ (0b000000, .addressSize 0), (0b000001, .addressSize 1), (0b000010, .addressSize 2), (0b000011, .addressSize 3),
    (0b000100, .translation 0), (0b000101, .translation 1), (0b000110, .translation 2), (0b000111, .translation 3),
    (0b001001, .accessFlag 1), (0b001010, .accessFlag 2), (0b001011, .accessFlag 3),
    (0b001101, .permission 1), (0b001110, .permission 2), (0b001111, .permission 3),
    (0b010000, .syncExternal),
    (0b010100, .syncExternalOnWalk 0), (0b010101, .syncExternalOnWalk 1), (0b010110, .syncExternalOnWalk 2),
    (0b010111, .syncExternalOnWalk 3),
    (0b011000, .parityOrEcc),
    (0b011100, .parityOrEccOnWalk 0), (0b011101, .parityOrEccOnWalk 1), (0b011110, .parityOrEccOnWalk 2),
    (0b011111, .parityOrEccOnWalk 3),
    (0b110000, .tlbConflict), (0b110001, .unsupportedAtomicHwUpdate) ]

/-- The six codes the DFSC table has beyond the IFSC table (R128). -/
def dfscExtra : List (BitVec 6 × FaultKind) :=
  [ (0b010001, .syncTagCheckFail), (0b100001, .alignment), (0b110100, .lockdown), (0b110101, .unsupportedExclusiveOrAtomic),
    (0b111101, .sectionDomain), (0b111110, .pageDomain) ]

/-- Whether a kind of fault has its code under the features: parity and ECC codes are reserved with the RAS Extension, code 0b110001
without ARMv8.1-TTHM (R111, R128). -/
def faultKindDefined (p : Params) : FaultKind → Bool
  | .parityOrEcc | .parityOrEccOnWalk _ => !p.haveRas
  | .unsupportedAtomicHwUpdate => p.haveTthm
  | _ => true

/-- The meaning of a code in a table, none where it is reserved. -/
def lookupFault (p : Params) (table : List (BitVec 6 × FaultKind)) (c : BitVec 6) : Option FaultKind :=
  match table.lookup c with
  | some k => if faultKindDefined p k then some k else none
  | none => none

/-- The meaning of an IFSC value (R111). -/
def ifscKind (p : Params) (c : BitVec 6) : Option FaultKind := lookupFault p ifscTable c

/-- The meaning of a DFSC value in a Data Abort (R128). -/
def dfscKind (p : Params) (c : BitVec 6) : Option FaultKind := lookupFault p (ifscTable ++ dfscExtra) c

/-- Whether hardware can report a DFSC value: the two Domain faults are "used only for faults reported in the PAR_EL1" (R128). -/
def dfscReportable (p : Params) (c : BitVec 6) : Bool :=
  match dfscKind p c with
  | none | some .sectionDomain | some .pageDomain => false
  | some _ => true

/-- The code of a synchronous External abort not on a translation table walk: SET and FnV are reported with it only (R107, R108). -/
def fscSyncExternal : BitVec 6 := 0b010000

/-- Synchronous External aborts on a translation table walk (R111, R128), for the IMPLEMENTATION DEFINED ISV of R115. That a parity or
ECC error on a walk (0b011100 to 0b011111) is no such abort there, though R109 counts it as External, is a DESIGN CHOICE [log 37]. -/
def isExternalOnWalk (c : BitVec 6) : Bool := decide (c ∈ [(0b010100 : BitVec 6), 0b010101, 0b010110, 0b010111])

/-- `IsExternal(fsc)` (R109). -/
def isExternalCode (c : BitVec 6) : Bool :=
  decide (c ∈ [(0b010000 : BitVec 6), 0b010100, 0b010101, 0b010110, 0b010111, 0b011000, 0b011100, 0b011101, 0b011110, 0b011111])

end Sys2Proof.Machine
end

