-- ==== Sys2Proof/Machine/Flags.lean ====
section
/-! DEFINITION. Condition information. No accessor reads or writes a condition flag (10_state.md R36, 44_sysreg_access.md R166), so
the spec gives no flag computation; what it gives is the condition code of a trapped instruction as reported data: CV and COND
(40_iss_traps.md R64, R65). -/

namespace Sys2Proof.Machine

/-- CV, bit [24] of six layouts (R64). -/
def cvBit (p : Params) (r : ExceptionRecord) : BitVec 1 :=
  BitVec.ofBool (decide (r.fromState = .aarch64) || decide (r.iset = .a32) || p.t32Cv)

/-- COND, bits [23:20] of six layouts (R65). `d` is the draw for the case that leaves it UNKNOWN. -/
def condField (p : Params) (r : ExceptionRecord) (d : BitVec 4) : BitVec 4 :=
  if r.fromState = .aarch64 then 0b1110
  else if r.iset = .a32 then
    if !r.conditional then 0b1110
    else if r.knownPass && p.condPassAsAl then 0b1110
    else r.cond
  else if p.t32Cv then
    if r.knownPass && p.condPassAsAl then 0b1110 else r.cond
  else d

end Sys2Proof.Machine
end

