-- ==== Sys2Proof/Machine/Iss.lean ====
section
/-! DEFINITION. The 24 ISS layouts: for each, the function `Syn_<layout>` that builds the 25 bits from an exception record
(40_iss_traps.md to 43_iss_fp_serror_debug.md). `d` is one draw of the oracle; an UNKNOWN subfield takes the bits of `d` that stand
where the subfield stands, so each is free of the others [log 16]. -/

namespace Sys2Proof.Machine

/-- The 24 layouts, in the source's order (00_scope.md R14). -/
inductive IssLayout where
  | unk | wfx | mcr | mcrr | ldc | fpAcc | sveAcc | ill | svc | smc32 | smc64 | sys | impEl3 | iabt | dabt | fpExc | serr | bkpt
  | sstep | wpt | brk | eret | bti | pac
deriving DecidableEq, Repr

/-- The bits of a draw that an UNKNOWN field at bit `lo`, `n` bits wide, takes. -/
def drawn (d : Word) (lo n : Nat) : BitVec n := d.extractLsb' lo n

/-- The AArch64 views of the registers that might have been used at the source level (R23) [log 17]. -/
def usableViews (r : ExceptionRecord) : List (BitVec 5) :=
  (r.usable.filter fun m => decide (m.2 ≠ 0b1111)).map fun m => Config.a64View m.1 m.2

/-- A register-number subfield (R23): a number that the record gives as its AArch64 view, unchanged (R178); the AArch64 view of an
AArch32 register; for descriptor 0b1111 the value 0b11111, or, where the instruction was UNPREDICTABLE, the draw if it is the view of a register that might have been used, and
0b11111 if not (93_implementation_defined.md U4). -/
def regField (r : ExceptionRecord) (reg : RegDesc) (d : BitVec 5) : BitVec 5 :=
  match reg with
  | .view n => n
  | .a32 a =>
    if a = 0b1111 then if r.unpredictable && decide (d ∈ usableViews r) then d else 0b11111
    else Config.a64View r.mode a

/-- CV and COND together, bits [24:20]. -/
def condBits (p : Params) (r : ExceptionRecord) (d : Word) : BitVec 5 :=
  cvBit p r ++ condField p r (drawn d 20 4)

/-- UNK (R66): ISS is RES0. -/
def issUnk : BitVec 25 := 0

/-- WFX (R68, R69): CV, COND, TI. -/
def issWfx (p : Params) (r : ExceptionRecord) (d : Word) : BitVec 25 :=
  condBits p r d ++ (0 : BitVec 19) ++ BitVec.ofBool r.isWfe

/-- MCR (R71 to R73). A VMRS reports Opc2 0b000, Opc1 0b111, its `reg` field as CRn, CRm 0b0000, and is a read (R72, R73). -/
def issMcr (p : Params) (r : ExceptionRecord) (d : Word) : BitVec 25 :=
  let opc2 : BitVec 3 := if r.isVmrs then 0b000 else r.opc2
  let opc1 : BitVec 3 := if r.isVmrs then 0b111 else r.opc1.extractLsb' 0 3
  let crm : BitVec 4 := if r.isVmrs then 0b0000 else r.crm
  condBits p r d ++ opc2 ++ opc1 ++ r.crn ++ regField r r.rt (drawn d 5 5) ++ crm ++ BitVec.ofBool (r.isRead || r.isVmrs)

/-- MCRR (R76, R77). -/
def issMcrr (p : Params) (r : ExceptionRecord) (d : Word) : BitVec 25 :=
  condBits p r d ++ r.opc1 ++ (0 : BitVec 1) ++ regField r r.rt2 (drawn d 10 5) ++ regField r r.rt (drawn d 5 5) ++ r.crm ++
    BitVec.ofBool r.isRead

/-- AM of the LDC layout (R83): literal or immediate form, then P and W. -/
def ldcAm (r : ExceptionRecord) : BitVec 3 := BitVec.ofBool r.literal ++ BitVec.ofBool r.p ++ BitVec.ofBool r.w

/-- LDC (R79 to R84). Rn is UNKNOWN in the literal form (R81). -/
def issLdc (p : Params) (r : ExceptionRecord) (d : Word) : BitVec 25 :=
  let rn : BitVec 5 := if r.literal then drawn d 5 5 else regField r r.rn (drawn d 5 5)
  condBits p r d ++ r.imm8 ++ (0 : BitVec 2) ++ rn ++ BitVec.ofBool r.add ++ ldcAm r ++ BitVec.ofBool r.isLoad

/-- FPACC (R86): CV and COND only. -/
def issFpAcc (p : Params) (r : ExceptionRecord) (d : Word) : BitVec 25 :=
  condBits p r d ++ (0 : BitVec 20)

/-- SVEACC (R88): RES0. -/
def issSveAcc : BitVec 25 := 0

/-- ILL (R89): RES0. -/
def issIll : BitVec 25 := 0

/-- imm16 of the SVC layout (R91, R63): whole, zero-extended from imm8, or the low 16 bits of imm24; UNKNOWN for a conditional A32 or
T32 SVC. -/
def svcImm16 (r : ExceptionRecord) (d : BitVec 16) : BitVec 16 :=
  if r.iset = .a64 then r.imm16
  else if r.conditional then d
  else if r.iset = .t32 then r.imm8.setWidth 16
  else r.imm24.extractLsb' 0 16

/-- SVC (R90, R91). -/
def issSvc (r : ExceptionRecord) (d : Word) : BitVec 25 :=
  (0 : BitVec 9) ++ svcImm16 r (drawn d 0 16)

/-- imm16 of an HVC, in the SVC layout: the instruction's own field whatever the instruction set (R91). -/
def issHvc (r : ExceptionRecord) : BitVec 25 := (0 : BitVec 9) ++ r.imm16

/-- CCKNOWNPASS (R94). -/
def ccKnownPass (p : Params) (r : ExceptionRecord) : Bool :=
  p.smcCcfailTrapped && r.conditional && !r.knownPass

/-- SMC32 (R93): RES0 for an SMC that completes and is taken to EL3; otherwise CV and COND are valid only with CCKNOWNPASS. -/
def issSmc32 (p : Params) (r : ExceptionRecord) (d : Word) : BitVec 25 :=
  if r.target = .el3 then 0
  else (if ccKnownPass p r then condBits p r d else 0) ++ BitVec.ofBool (ccKnownPass p r) ++ (0 : BitVec 19)

/-- SMC64 (R95, R96). -/
def issSmc64 (r : ExceptionRecord) : BitVec 25 := (0 : BitVec 9) ++ r.imm16

/-- SYS (R97, R98). Op2 stands above Op1, Rt between CRn and CRm. -/
def issSys (r : ExceptionRecord) (d : Word) : BitVec 25 :=
  (0 : BitVec 3) ++ r.op0 ++ r.op2 ++ r.op1 ++ r.crn ++ regField r r.rt (drawn d 5 5) ++ r.crm ++ BitVec.ofBool r.isRead

/-- SET of both abort layouts (R107, R122). -/
def setField (p : Params) (r : ExceptionRecord) : BitVec 2 :=
  if p.haveRas && decide (r.fsc = fscSyncExternal) then r.set else 0

/-- FnV of both abort layouts (R108, R123). -/
def fnvBit (r : ExceptionRecord) : BitVec 1 :=
  BitVec.ofBool (decide (r.fsc = fscSyncExternal) && r.farNotValid)

/-- EA of both abort layouts (R109, R124); `ea` is EA_CLASS of the record. -/
def abortEaBit (r : ExceptionRecord) (ea : BitVec 1) : BitVec 1 :=
  if isExternalCode r.fsc then ea else 0

/-- S1PTW of both abort layouts (R110, R126). -/
def s1ptwBit (r : ExceptionRecord) : BitVec 1 := BitVec.ofBool (r.stage2 && r.s1ptw)

/-- IABT (R106 to R111). -/
def issIabt (p : Params) (r : ExceptionRecord) (ea : BitVec 1) : BitVec 25 :=
  (0 : BitVec 12) ++ setField p r ++ fnvBit r ++ abortEaBit r ea ++ (0 : BitVec 1) ++ s1ptwBit r ++ (0 : BitVec 1) ++ r.fsc

/-- What ISV of a Data Abort is. -/
inductive IsvCase where
  | is (b : Bool)
  | unknown
deriving DecidableEq, Repr

/-- ISV of a Data Abort (R115). It is 0 in ESR_EL1 and ESR_EL3; the other cases are ESR_EL2's [log 28]. The rule gives its sentences
no order: that the IMPLEMENTATION DEFINED case of an External abort on a stage 2 walk stands before the list of instructions and the
Debug state case is a DESIGN CHOICE [log 38]. -/
def dabtIsv (p : Params) (g : SyndromeInputs) (r : ExceptionRecord) : IsvCase :=
  if r.target ≠ .el2 then .is false
  else if p.haveRas && isExternalCode r.fsc then .is false
  else if r.stage2 && r.s1ptw then .is false
  else if r.stage2 && isExternalOnWalk r.fsc then .is p.isvS2WalkExtabt
  else if !(r.stage2 && r.transfer.eligible) then .is false
  else if g.debugState && r.transfer.accessMode then .unknown
  else .is r.transfer.valid

/-- A field of ISS[23:14]: RES0 when ISV is 0, UNKNOWN when ISV is UNKNOWN (R116 to R120). -/
def transferField {n : Nat} (isv : IsvCase) (v d : BitVec n) : BitVec n :=
  match isv with
  | .is true => v
  | .is false => 0
  | .unknown => d

/-- The access is a load: it writes nothing, and is neither an atomic access, which both reads and writes, nor cache maintenance or
address translation (R125, R127). -/
def isLoadAccess (r : ExceptionRecord) : Bool := !r.isWrite && !r.isAtomic && !r.isCmOrAt

/-- SSE of a Data Abort with ISV 1 (R117): for a byte, halfword or word load; 0 for all other operations. -/
def sseBit (r : ExceptionRecord) : BitVec 1 :=
  BitVec.ofBool (r.transfer.sse && isLoadAccess r && decide (r.transfer.sas ≠ 0b11))

/-- The ISV bit itself. -/
def isvBit (isv : IsvCase) (d : BitVec 1) : BitVec 1 :=
  match isv with
  | .is b => BitVec.ofBool b
  | .unknown => d

/-- VNCR, bit [13] of the Data Abort and Watchpoint layouts: RES0 without ARMv8.4-NV, and 0 in ESR_EL1 (R121, R153). -/
def vncrBit (p : Params) (r : ExceptionRecord) : BitVec 1 :=
  BitVec.ofBool (p.haveNv2 && decide (r.target ≠ .el1) && r.vncr)

/-- WnR of a Data Abort (R127), in the order of the rule's tests. -/
def dabtWnr (p : Params) (r : ExceptionRecord) (d : BitVec 1) : BitVec 1 :=
  if r.fsc = 0b110101 ∨ r.fsc = 0b110001 then d
  else if isExternalCode r.fsc && r.isAtomic then d
  else if r.isCmOrAt then 1
  else if r.isAtomic then
    if r.stage2 && r.s1ptw && p.atomicS1ptwWnr0 then 0
    else BitVec.ofBool (!r.readWouldFault)
  else BitVec.ofBool r.isWrite

/-- DABT (R114 to R128). R129 is what it comes to for target EL1. -/
def issDabt (p : Params) (g : SyndromeInputs) (r : ExceptionRecord) (ea : BitVec 1) (d : Word) : BitVec 25 :=
  let isv := dabtIsv p g r
  isvBit isv (drawn d 24 1) ++ transferField isv r.transfer.sas (drawn d 22 2) ++
    transferField isv (sseBit r) (drawn d 21 1) ++
    transferField isv (regField r r.transfer.srt (drawn d 16 5)) (drawn d 16 5) ++
    transferField isv (BitVec.ofBool r.transfer.sf) (drawn d 15 1) ++
    transferField isv (BitVec.ofBool r.transfer.ar) (drawn d 14 1) ++
    vncrBit p r ++ setField p r ++ fnvBit r ++ abortEaBit r ea ++ BitVec.ofBool r.isCmOrAt ++ s1ptwBit r ++
    dabtWnr p r (drawn d 6 1) ++ r.fsc

/-- TFV (R133). -/
def fpTfv (p : Params) (r : ExceptionRecord) : Bool := !(r.isVector && p.tfvZeroOnVector)

/-- One of the six trapped-exception bits (R135): UNKNOWN when TFV is 0. -/
def fpBit (p : Params) (r : ExceptionRecord) (b : Bool) (d : BitVec 1) : BitVec 1 :=
  if fpTfv p r then BitVec.ofBool b else d

/-- VECITR (R134). -/
def vecitr (r : ExceptionRecord) (d : BitVec 3) : BitVec 3 :=
  if r.fromState = .aarch32 then 0b111 else d

/-- FPEXC (R132 to R135). -/
def issFpExc (p : Params) (r : ExceptionRecord) (d : Word) : BitVec 25 :=
  (0 : BitVec 1) ++ BitVec.ofBool (fpTfv p r) ++ (0 : BitVec 12) ++ vecitr r (drawn d 8 3) ++
    fpBit p r r.fpTrapped.inputDenormal (drawn d 7 1) ++ (0 : BitVec 2) ++
    fpBit p r r.fpTrapped.inexact (drawn d 4 1) ++ fpBit p r r.fpTrapped.underflow (drawn d 3 1) ++
    fpBit p r r.fpTrapped.overflow (drawn d 2 1) ++ fpBit p r r.fpTrapped.divideByZero (drawn d 1 1) ++
    fpBit p r r.fpTrapped.invalidOperation (drawn d 0 1)

/-- The SError DFSC "Asynchronous SError interrupt" (R143). -/
def serrAsync : BitVec 6 := 0b010001

/-- SERR (R138 to R143); `ids` is IDS_SYNDROME and `ea` EA_CLASS of the record. -/
def issSerr (p : Params) (r : ExceptionRecord) (ids : BitVec 24) (ea : BitVec 1) : BitVec 25 :=
  if r.serrImpdef then (1 : BitVec 1) ++ ids
  else if !p.haveRas then 0
  else
    let sync := decide (r.serrDfsc = serrAsync)
    (0 : BitVec 11) ++ BitVec.ofBool (p.haveIesb && sync && r.iesb) ++ (if sync then r.aet else 0) ++
      (if sync && r.isExternal then ea else 0) ++ (0 : BitVec 3) ++ r.serrDfsc

/-- The fault status code of the hardware debug exceptions (R146, R148, R152). -/
def fscDebug : BitVec 6 := 0b100010

/-- BKPT (R146): a constant. -/
def issBkpt : BitVec 25 := (0 : BitVec 19) ++ fscDebug

/-- SSTEP (R148 to R150). -/
def issSstep (r : ExceptionRecord) : BitVec 25 :=
  BitVec.ofBool r.stepIsv ++ (0 : BitVec 17) ++ BitVec.ofBool (r.stepIsv && r.steppedLoadExclusive) ++ fscDebug

/-- WnR of a Watchpoint (R155). -/
def wptWnr (r : ExceptionRecord) : Bool :=
  if r.isCmOrAt then true else if r.isAtomic then !r.readWouldFault else r.isWrite

/-- WPT (R152 to R155). -/
def issWpt (p : Params) (r : ExceptionRecord) : BitVec 25 :=
  (0 : BitVec 11) ++ vncrBit p r ++ (0 : BitVec 4) ++ BitVec.ofBool r.isCmOrAt ++ (0 : BitVec 1) ++ BitVec.ofBool (wptWnr r) ++ fscDebug

/-- Comment of the BRK layout (R158): a T32 BKPT has an 8-bit immediate. -/
def brkComment (r : ExceptionRecord) : BitVec 16 :=
  if r.iset = .t32 then (r.imm.extractLsb' 0 8).setWidth 16 else r.imm

/-- BRK (R157, R158). -/
def issBrk (r : ExceptionRecord) : BitVec 25 := (0 : BitVec 9) ++ brkComment r

/-- ERET (R102): 0b00 for ERET, 0b10 for ERETAA, 0b11 for ERETAB. -/
def issEret (r : ExceptionRecord) : BitVec 25 :=
  (0 : BitVec 23) ++ (match r.eret with
    | .eret => (0b00 : BitVec 2)
    | .eretaa => 0b10
    | .eretab => 0b11)

/-- BTI (R103, R104). -/
def issBti (r : ExceptionRecord) : BitVec 25 := (0 : BitVec 23) ++ r.btype

/-- PAC (R105): RES0. -/
def issPac : BitVec 25 := 0

end Sys2Proof.Machine
end

