-- ==== Sys2Proof/Machine/Syndrome.lean ====
section
/-! DEFINITION. The syndrome EC : IL : ISS of an exception record (30_encoding.md R61, R62; 60_exceptions.md section 2), and the
composition and decomposition of a register value (10_state.md R18). -/

namespace Sys2Proof.Machine

/-- Bits [31:26] of a value (R61). -/
def ecOf (v : Word) : BitVec 6 := v.extractLsb' 26 6
/-- Bit [25] of a value (R61). -/
def ilOf (v : Word) : BitVec 1 := v.extractLsb' 25 1
/-- Bits [24:0] of a value (R61). -/
def issOf (v : Word) : BitVec 25 := v.extractLsb' 0 25
/-- Bits [63:32] of a value, RES0 in ESR_EL1 (R19). -/
def hiOf (v : Word) : BitVec 32 := v.extractLsb' 32 32
/-- Bits [31:0] of a value. -/
def loOf (v : Word) : BitVec 32 := v.extractLsb' 0 32

/-- The EC values of this register and the layout each selects (R62). -/
def ecTable : List (BitVec 6 × IssLayout) :=
  [ (0x00, .unk), (0x01, .wfx), (0x03, .mcr), (0x04, .mcrr), (0x05, .mcr), (0x06, .ldc), (0x07, .fpAcc), (0x0C, .mcrr),
    (0x0D, .bti), (0x0E, .ill), (0x11, .svc), (0x15, .svc), (0x18, .sys), (0x19, .sveAcc), (0x20, .iabt), (0x21, .iabt),
    (0x22, .ill), (0x24, .dabt), (0x25, .dabt), (0x26, .ill), (0x28, .fpExc), (0x2C, .fpExc), (0x2F, .serr), (0x30, .bkpt),
    (0x31, .bkpt), (0x32, .sstep), (0x33, .sstep), (0x34, .wpt), (0x35, .wpt), (0x38, .brk), (0x3C, .brk) ]

/-- Whether a listed EC value is defined under the features (R62, R213: 0x0D, 0x19, 0x28 and 0x2C are conditional). -/
def ecImplemented (p : Params) (ec : BitVec 6) : Bool :=
  if ec = 0x0D then p.haveBti
  else if ec = 0x19 then p.haveSve
  else if ec = 0x28 ∨ ec = 0x2C then p.haveFpTraps
  else true

/-- The layout an EC value selects, none where the value is reserved (R62, R213). -/
def layoutOfEc (p : Params) (ec : BitVec 6) : Option IssLayout :=
  if ecImplemented p ec then ecTable.lookup ec else none

/-- Whether an EC value is defined, so not reserved (R213). -/
def ecDefined (p : Params) (ec : BitVec 6) : Bool := (layoutOfEc p ec).isSome

/-- The EC of a pair: "lower" when the exception comes from a lower level than its target, "same" otherwise (R180(b)). -/
def lowerOrSame (r : ExceptionRecord) (lower same : BitVec 6) : BitVec 6 :=
  if r.fromEl = r.target then same else lower

/-- A trapped floating-point access that is reported with EC 0 (R86, R188, R216): without SVE and floating-point, and a trap by
CPACR_EL1 while HCR_EL2.TGE is in effect. -/
def fpReportedUnknown (p : Params) (g : SyndromeInputs) (r : ExceptionRecord) : Bool :=
  !(p.haveFp || p.haveSve) || (g.tge && decide (r.fpControl = .cpacrFpen))

/-- The EC value of a record (R182 to R212); none for the classes whose EC value is not on the page (R214). An access to SVE without
SVE is reported with EC 0 (R88) [log 27]. -/
def ecOfRecord (p : Params) (g : SyndromeInputs) (r : ExceptionRecord) : Option (BitVec 6) :=
  match r.cls with
  | .unknownReason => some 0x00
  | .wfx => some 0x01
  | .mcrCp15 => some 0x03
  | .mcrrCp15 => some 0x04
  | .mcrCp14 => some 0x05
  | .ldcStc => some 0x06
  | .fpAccess => some (if fpReportedUnknown p g r then 0x00 else 0x07)
  | .mrrcCp14 => some 0x0C
  | .branchTarget => some 0x0D
  | .illegalState => some 0x0E
  | .svcA32 => some 0x11
  | .svcA64 => some 0x15
  | .sysTrap => some 0x18
  | .sveAccess => some (if p.haveSve then 0x19 else 0x00)
  | .instAbort => some (lowerOrSame r 0x20 0x21)
  | .pcAlignment => some 0x22
  | .dataAbort => some (lowerOrSame r 0x24 0x25)
  | .spAlignment => some 0x26
  | .fpExcA32 => some 0x28
  | .fpExcA64 => some 0x2C
  | .sError => some 0x2F
  | .breakpoint | .vectorCatch => some (lowerOrSame r 0x30 0x31)
  | .softwareStep => some (lowerOrSame r 0x32 0x33)
  | .watchpoint => some (lowerOrSame r 0x34 0x35)
  | .bkptA32 => some 0x38
  | .brkA64 => some 0x3C
  | .hvc | .smcA32 | .smcA64 | .impDefEl3 | .eretTrap | .pacTrap => none

/-- The layout of a record's ISS (R62; R214 for the classes without an EC value here). -/
def layoutOfRecord (p : Params) (g : SyndromeInputs) (r : ExceptionRecord) : IssLayout :=
  match r.cls with
  | .unknownReason => .unk
  | .wfx => .wfx
  | .mcrCp15 | .mcrCp14 => .mcr
  | .mcrrCp15 | .mrrcCp14 => .mcrr
  | .ldcStc => .ldc
  | .fpAccess => if fpReportedUnknown p g r then .unk else .fpAcc
  | .branchTarget => .bti
  | .illegalState | .pcAlignment | .spAlignment => .ill
  | .svcA32 | .svcA64 | .hvc => .svc
  | .sysTrap => .sys
  | .sveAccess => if p.haveSve then .sveAcc else .unk
  | .instAbort => .iabt
  | .dataAbort => .dabt
  | .fpExcA32 | .fpExcA64 => .fpExc
  | .sError => .serr
  | .breakpoint | .vectorCatch => .bkpt
  | .softwareStep => .sstep
  | .watchpoint => .wpt
  | .bkptA32 | .brkA64 => .brk
  | .smcA32 => .smc32
  | .smcA64 => .smc64
  | .impDefEl3 => .impEl3
  | .eretTrap => .eret
  | .pacTrap => .pac

/-- `ISS(rec)`: the `Syn_<layout>` function of the record's layout (R179). `g` is the environment's (R224, R188), `d` the draw. -/
def issOfRecord (p : Params) (g : SyndromeInputs) (r : ExceptionRecord) (d : Word) : BitVec 25 :=
  match layoutOfRecord p g r with
  | .unk => issUnk
  | .wfx => issWfx p r d
  | .mcr => issMcr p r d
  | .mcrr => issMcrr p r d
  | .ldc => issLdc p r d
  | .fpAcc => issFpAcc p r d
  | .sveAcc => issSveAcc
  | .ill => issIll
  | .svc => if r.cls = .hvc then issHvc r else issSvc r d
  | .smc32 => issSmc32 p r d
  | .smc64 => issSmc64 r
  | .sys => issSys r d
  | .impEl3 => Config.impDefEl3Iss r
  | .iabt => issIabt p r (Config.eaClass r)
  | .dabt => issDabt p g r (Config.eaClass r) d
  | .fpExc => issFpExc p r d
  | .serr => issSerr p r (Config.idsSyndrome r) (Config.eaClass r)
  | .bkpt => issBkpt
  | .sstep => issSstep r
  | .wpt => issWpt p r
  | .brk => issBrk r
  | .eret => issEret r
  | .bti => issBti r
  | .pac => issPac

/-- The IL bit of the instruction's own length (R215, last line). -/
def lengthBit (r : ExceptionRecord) : BitVec 1 :=
  match r.instrLen with
  | .bits16 => 0
  | .bits32 => 1

/-- The EC values for which IL is 1 whatever the instruction (R215, first list). -/
def ilForced : List (BitVec 6) :=
  [0x00, 0x0E, 0x20, 0x21, 0x22, 0x26, 0x2F, 0x30, 0x31, 0x32, 0x33, 0x34, 0x35]

/-- `IL(rec)` (R215). -/
def ilOfRecord (p : Params) (g : SyndromeInputs) (r : ExceptionRecord) (d : Word) : BitVec 1 :=
  match ecOfRecord p g r with
  | none => lengthBit r
  | some ec =>
    if ec ∈ ilForced then 1
    else if ec = 0x24 ∨ ec = 0x25 then
      if isvBit (dabtIsv p g r) (drawn d 24 1) = 0 then 1 else lengthBit r
    else lengthBit r

/-- The syndrome EC : IL : ISS of a record (R26, R61). A class whose EC value is not on the page takes a free one [log 13]. -/
def syndrome (p : Params) (g : SyndromeInputs) (r : ExceptionRecord) (d : Word) : BitVec 32 :=
  (ecOfRecord p g r).getD (drawn d 26 6) ++ ilOfRecord p g r d ++ issOfRecord p g r d

end Sys2Proof.Machine
end

