-- ==== Sys2Proof/Machine/RecordCheck.lean ====
section
/-! DEFINITION. Which exception records the model takes. A record that carries a reserved code is refused (42_iss_aborts.md R111, R128;
93_implementation_defined.md V4, V5), and so is one whose class, levels or state the rules exclude (60_exceptions.md R180, R182 to
R214). A field that the class's rules do not read is not looked at (R178) [log 18]. -/

namespace Sys2Proof.Machine

/-- The target level is one an exception can be taken to from the source level (R180(c), D16), and is implemented (R8). -/
def targetOk (p : Params) (r : ExceptionRecord) : Bool :=
  decide (r.target ≠ .el0) && decide (r.fromEl.rank ≤ r.target.rank) &&
    (decide (r.target ≠ .el2) || p.haveEl2) && (decide (r.target ≠ .el3) || p.haveEl3)

/-- Classes that come from AArch32 state only (R184 to R187, R189, R192, R202, R211; R147 for Vector Catch; R93). -/
def aarch32Class : ExcClass → Bool
  | .mcrCp15 | .mcrrCp15 | .mcrCp14 | .ldcStc | .mrrcCp14 | .svcA32 | .fpExcA32 | .bkptA32 | .vectorCatch | .smcA32 => true
  | _ => false

/-- Classes that come from AArch64 state only (R190, R193 to R195, R203, R212; R95). That a trapped Pointer Authentication instruction
and a trapped ERET do is a DESIGN CHOICE: R105 and R102 do not say [logs 36, 41]. -/
def aarch64Class : ExcClass → Bool
  | .svcA64 | .sysTrap | .sveAccess | .fpExcA64 | .brkA64 | .branchTarget | .smcA64 | .eretTrap | .pacTrap => true
  | _ => false

/-- The rules of the record's class read `from`, `iset` or `instr_len`: IL is the instruction's length (R215), as it is for every class
with CV and COND (R64, R65), and for a Data Abort whose ISV is not 0, in Debug state or out of it. -/
def readsInstruction (p : Params) (r : ExceptionRecord) : Bool :=
  match r.cls with
  | .wfx | .mcrCp15 | .mcrrCp15 | .mcrCp14 | .ldcStc | .fpAccess | .mrrcCp14 | .branchTarget | .svcA32 | .svcA64 | .sysTrap
  | .sveAccess | .fpExcA32 | .fpExcA64 | .bkptA32 | .brkA64 | .hvc | .smcA32 | .smcA64 | .impDefEl3 | .eretTrap | .pacTrap => true
  | .dataAbort => decide (dabtIsv p { debugState := true } r ≠ .is false)
  | .unknownReason | .illegalState | .instAbort | .pcAlignment | .spAlignment | .sError | .breakpoint | .vectorCatch
  | .softwareStep | .watchpoint => false

/-- The class exists under the features (R190, R202, R203, R102; R194 for its causes). SVE and floating-point accesses are reported
with EC 0 instead (R86, R88). -/
def classDefined (p : Params) (r : ExceptionRecord) : Bool :=
  match r.cls with
  | .branchTarget => p.haveBti
  | .fpExcA32 | .fpExcA64 => p.haveFpTraps
  | .eretTrap => p.haveNv
  | .sysTrap =>
    match r.sysCause with
    | .trap => true
    | .idRegisterRead => p.haveIdst
    | .cacheSpeculation => p.haveCsv2
  | _ => true

/-- The target is one the class can have: the classes without an EC value here are taken to EL2 or EL3 (R214; R101: EL3 only;
R102: EL2 only); of the controls of floating-point accesses only CPACR_EL1 traps to EL1 (R188). -/
def classTargetOk (r : ExceptionRecord) : Bool :=
  match r.cls with
  | .hvc | .smcA32 | .smcA64 | .pacTrap => decide (r.target ≠ .el1)
  | .impDefEl3 => decide (r.target = .el3)
  | .eretTrap => decide (r.target = .el2)
  | .fpAccess => decide (r.target ≠ .el1) || decide (r.fpControl = .cpacrFpen)
  | _ => true

/-- Execution state, instruction set and length fit: AArch32 classes need AArch32 and come to EL1 from EL0 only (section 2 of
60_exceptions.md); A64 is the instruction set of AArch64; only T32 has 16-bit instructions (R60, R215). That a T32 record of either
length is taken for every class, BKPT and SVC of 32 bits among them, is a DESIGN CHOICE [log 42]. -/
def execStateOk (p : Params) (r : ExceptionRecord) : Bool :=
  (!aarch32Class r.cls || decide (r.fromState = .aarch32)) &&
  (!aarch64Class r.cls || decide (r.fromState = .aarch64)) &&
  (!(aarch32Class r.cls || readsInstruction p r) || decide (r.fromState = .aarch64) ||
    (p.haveAarch32 && (decide (r.target ≠ .el1) || decide (r.fromEl = .el0)))) &&
  (!readsInstruction p r ||
    ((decide (r.iset = .a64) == decide (r.fromState = .aarch64)) &&
      (decide (r.instrLen = .bits32) || decide (r.iset = .t32))))

/-- A trap of WFI or WFE to EL1 comes from EL0 (R183). -/
def wfxLevelOk (r : ExceptionRecord) : Bool :=
  decide (r.cls ≠ .wfx) || decide (r.target ≠ .el1) || decide (r.fromEl = .el0)

/-- A register operand has a form that the Execution state allows: an AArch64 view from either (R178), an AArch32 descriptor from
AArch32 state alone (R23). -/
def registerOk (r : ExceptionRecord) : RegDesc → Bool
  | .view _ => true
  | .a32 _ => decide (r.fromState = .aarch32)

/-- So have the register operands that the class's layout reports: Rt, Rt2, Rn outside the literal form (R81), and SRT where ISV is 1
(R115, R118): Debug state can make ISV UNKNOWN there, never 1 elsewhere. -/
def registersOk (p : Params) (r : ExceptionRecord) : Bool :=
  match r.cls with
  | .mcrCp15 | .mcrCp14 | .sysTrap => registerOk r r.rt
  | .mcrrCp15 | .mrrcCp14 => registerOk r r.rt && registerOk r r.rt2
  | .ldcStc => r.literal || registerOk r r.rn
  | .dataAbort => decide (dabtIsv p {} r ≠ .is true) || registerOk r r.transfer.srt
  | _ => true

/-- Coproc 0b1110 has a trapped MRRC and no trapped MCRR, so the record says read (R78, R189) [log 26]. -/
def directionOk (r : ExceptionRecord) : Bool := decide (r.cls ≠ .mrrcCp14) || r.isRead

/-- The fault status code is a defined row (R111, R128). -/
def faultStatusOk (p : Params) (r : ExceptionRecord) : Bool :=
  match r.cls with
  | .instAbort => (ifscKind p r.fsc).isSome
  | .dataAbort => dfscReportable p r.fsc
  | _ => true

/-- SET is 0b00, 0b10 or 0b11 where it is reported (R107, R122). -/
def setOk (p : Params) (r : ExceptionRecord) : Bool :=
  match r.cls with
  | .instAbort | .dataAbort => decide (setField p r ≠ 0b01)
  | _ => true

/-- An architected SError syndrome has a defined DFSC and, with it, a defined AET (R141, R143). -/
def sErrorOk (p : Params) (r : ExceptionRecord) : Bool :=
  decide (r.cls ≠ .sError) || r.serrImpdef || !p.haveRas || decide (r.serrDfsc = 0) ||
    (decide (r.serrDfsc = serrAsync) && decide (r.aet ∈ [(0b000 : BitVec 3), 0b001, 0b010, 0b011, 0b110]))

/-- AM is not reserved (R83, V5): never 0b101 or 0b111; 0b100 only for an A32 LDC; 0b110 only for an LDC. -/
def addressingOk (r : ExceptionRecord) : Bool :=
  decide (r.cls ≠ .ldcStc) || !r.literal ||
    (!r.w && r.isLoad && (r.p || decide (r.iset = .a32)))

/-- With TFV 1 at least one floating-point exception occurred (R133, R135). -/
def fpFlagsOk (p : Params) (r : ExceptionRecord) : Bool :=
  match r.cls with
  | .fpExcA32 | .fpExcA64 => !fpTfv p r || decide (r.fpTrapped ≠ {})
  | _ => true

/-- What is wrong with a record by itself, if anything. A `sysTrap` record from EL1 to EL1 is taken (R99 names a trap to EL1 of EL0
and EL1 accesses, R194 speaks of EL0 alone): DESIGN CHOICE [log 40]. -/
def recordProblem (p : Params) (r : ExceptionRecord) : Option RecordProblem :=
  if !targetOk p r then some .target
  else if !classDefined p r then some .classAbsent
  else if !classTargetOk r then some .noEcHere
  else if !execStateOk p r then some .execState
  else if !wfxLevelOk r then some .wfxLevel
  else if !registersOk p r then some .registerForm
  else if !directionOk r then some .direction
  else if !faultStatusOk p r then some .faultStatus
  else if !setOk p r then some .set
  else if !sErrorOk p r then some .sErrorStatus
  else if !addressingOk r then some .addressingMode
  else if !fpFlagsOk p r then some .fpFlags
  else none

/-- With HCR_EL2.TGE in effect nothing, IRQ and FIQ included, goes from EL0 to EL1 (R180(d), R222(a)) [log 35]. -/
def tgeAllows (s : State) (fromEl target : ExceptionLevel) : Bool :=
  decide (fromEl ≠ .el0) || decide (target ≠ .el1) || !hcrTge s

/-- The record describes the present state: its source level is PSTATE.EL (R178), its BTYPE is PSTATE.BTYPE (R104), an ERET is
trapped only while HCR_EL2.NV is 1 (R102), and with HCR_EL2.TGE nothing from EL0 goes to EL1 (R180(d)). -/
def recordFits (s : State) (r : ExceptionRecord) : Bool :=
  decide (r.fromEl = s.pstateEl) &&
  (decide (r.cls ≠ .branchTarget) || decide (r.btype = s.env.btype)) &&
  (decide (r.cls ≠ .eretTrap) || hcrNv s) &&
  tgeAllows s r.fromEl r.target

end Sys2Proof.Machine
end

