-- ==== Sys2Proof/Machine/Window.lean ====
section
/-! DEFINITION. The unordered window of EL3 accesses to register ESR_EL1 (20_memory.md R47, R48; 70_reset_and_hazards.md R235): the
accesses by the names ESR_EL1 and ESR_EL12 since the last explicit synchronization, in the order they took effect. A later access may
stand before earlier ones by the other name, never before one by its own name [log 14]. -/

namespace Sys2Proof.Machine

/-- The window with no access in it: what explicit synchronization leaves (R48). -/
def windowClosed : El3Window := {}

/-- The accesses R47 speaks of: those at EL3 with HCR_EL2.E2H = 1. -/
def inWindow (s : State) : Bool := decide (s.pstateEl = .el3) && hcrE2h s

/-- The other of the two names that reach register ESR_EL1 at EL3 (R47). -/
def otherName : EsrName → EsrName
  | .esrEl12 => .esrEl1
  | _ => .esrEl12

/-- The name an access used. -/
def WindowAccess.byName : WindowAccess → EsrName
  | .write n _ => n
  | .read n _ _ _ => n

/-- The access is a write. -/
def WindowAccess.isWrite : WindowAccess → Bool
  | .write _ _ => true
  | .read _ _ _ _ => false

/-- A register still holds what the access, a read, returned: an instruction that uses the register depends on the read. -/
def WindowAccess.feeds (rt : BitVec 5) : WindowAccess → Bool
  | .write _ _ => false
  | .read _ t holds _ => holds && decide (t = rt)

/-- The access is a read whose value has been used. -/
def WindowAccess.isUsed : WindowAccess → Bool
  | .write _ _ => false
  | .read _ _ _ used => used

/-- An access after register `rt` has been used. -/
def WindowAccess.afterUse (rt : BitVec 5) : WindowAccess → WindowAccess
  | .write n c => .write n c
  | .read n t holds used => .read n t holds (used || (holds && decide (t = rt)))

/-- An access after register `rt` has been overwritten. -/
def WindowAccess.afterOverwrite (rt : BitVec 5) : WindowAccess → WindowAccess
  | .write n c => .write n c
  | .read n t holds used => .read n t (holds && decide (t ≠ rt)) used

/-- The window after register `rt` has been used. -/
def useRegister (rt : BitVec 5) (w : El3Window) : El3Window := { w with order := w.order.map (·.afterUse rt) }

/-- The window after register `rt` has been overwritten. -/
def overwriteRegister (rt : BitVec 5) (w : El3Window) : El3Window := { w with order := w.order.map (·.afterOverwrite rt) }

/-- The newest accesses of a window that an access by a name may stand before (R47): those by the other name, down to the newest by
its own name or the newest that it depends on. A write depends on a read that filled its source; a read depends on none. -/
def overtakable (n : EsrName) (source : Option (BitVec 5)) (w : El3Window) : List WindowAccess :=
  w.order.takeWhile fun a => decide (a.byName ≠ n) && !(source.any fun rt => a.feeds rt)

/-- The content that a list of accesses, newest first, leaves over `base`. -/
def newestContent (base : EsrContent) : List WindowAccess → EsrContent
  | [] => base
  | .write _ c :: _ => c
  | .read _ _ _ _ :: rest => newestContent base rest

/-- An access put behind the `k` newest. -/
def insertBehind (k : Nat) (a : WindowAccess) (l : List WindowAccess) : List WindowAccess := l.take k ++ a :: l.drop k

/-- The window an access of the window joins: its content from before is the register's if it is the first. -/
def windowNow (s : State) : El3Window :=
  if s.window.order.isEmpty then { before := s.esrEl1, order := [] } else s.window

/-- Whether a write by a name, with source `rt`, is unordered against an earlier access by the other name (R47). -/
def writeRaces (n : EsrName) (rt : BitVec 5) (s : State) : Bool := inWindow s && !(overtakable n (some rt) s.window).isEmpty

/-- Whether a read by a name is unordered against an earlier write by the other name (R47). -/
def readRaces (n : EsrName) (s : State) : Bool := inWindow s && (overtakable n none s.window).any (·.isWrite)

/-- How many of the newest accesses an access takes effect before: a free choice of those it may (R47). -/
def overtaken (n : EsrName) (source : Option (BitVec 5)) (s : State) : Nat :=
  if inWindow s && !(overtakable n source s.window).isEmpty then Config.freeChoice s.draws % ((overtakable n source s.window).length + 1) else 0

/-- Whether a write could take effect before a read by the other name whose value has been used: an order the model cannot explore, since
what used the value is done (R47: the model then refuses the step). -/
def overtakesUse (n : EsrName) (rt : BitVec 5) (s : State) : Bool :=
  inWindow s && (overtakable n (some rt) s.window).any (·.isUsed)

end Sys2Proof.Machine
end

