-- ==== Sys2Proof/Machine/Ops.lean ====
section
/-! DEFINITION. The named operations the six accessors and the environment's events are written over: reading and writing the three
storages, completing, taking an exception and returning from one. -/

namespace Sys2Proof.Machine

/-- What an operation answers. -/
abbrev Result := Host.Outcome State Fault Refusal

/-! ### Completion -/

/-- A completed accessor: `pc <- pc + 4` modulo 2^64 (R160, R231). -/
def complete (s : State) : State := { s with pc := s.pc + 4 }

/-- A completed MRS (R160): `x[t]` has the value, so it no longer holds what an earlier read put there. -/
def completeRead (rt : BitVec 5) (v : Word) (s : State) : State :=
  complete { writeX s rt v with window := overwriteRegister rt s.window }

/-- A completed MSR (R160): `x[t]` has been used. -/
def completeWrite (rt : BitVec 5) (s : State) : State := complete { s with window := useRegister rt s.window }

/-! ### Register ESR_EL1 -/

/-- The bits that register ESR_EL1 stores of a value: [63:32] only when RES0_HI_WRITABLE (R19, R162). -/
def storedBits (p : Params) (v : Word) : Word :=
  if p.res0HiWritable then v else (0 : BitVec 32) ++ loOf v

/-- The 64 bits a read of a content returns: its own, or a fresh draw with [63:32] zero unless RES0_HI_WRITABLE (R30, R161). -/
def valueOf (s : State) : EsrContent → Word
  | .known v => v
  | .unknown => storedBits s.params (Config.freeValue s.draws)

/-- The content a read of register ESR_EL1 by a name sees: the register's, or, where it takes effect before a write by the other
name, what stood there then (R47). -/
def contentSeen (n : EsrName) (s : State) : EsrContent :=
  let k := overtaken n none s
  if (s.window.order.take k).any (·.isWrite) then newestContent s.window.before (s.window.order.drop k) else s.esrEl1

/-- The window after a read by a name into a register: the read stands behind the accesses it took effect before. A read outside the
window is ordered against all of it (R49). -/
def windowAfterRead (n : EsrName) (rt : BitVec 5) (s : State) : El3Window :=
  if inWindow s then
    let w := overwriteRegister rt (windowNow s)
    { w with order := insertBehind (overtaken n none s) (.read n rt (decide (rt ≠ 31)) false) w.order }
  else windowClosed

/-- `x[t] <- ESR_EL1` by a name, and completion (R160, R161). The register itself does not change. A draw is used where the value or the
order may be free. -/
def readEsrEl1 (n : EsrName) (rt : BitVec 5) (s : State) : State :=
  { completeRead rt (valueOf s (contentSeen n s)) s with
    draws := if inWindow s || decide (s.esrEl1 = .unknown) then s.draws + 1 else s.draws
    window := windowAfterRead n rt s }

/-- The content a software write of `v` gives the register; none where the model refuses the step (R162, R213). -/
def contentWritten (p : Params) (v : Word) : Option EsrContent :=
  if ecDefined p (ecOf v) then some (.known (storedBits p v))
  else
    match p.cuReservedEc with
    | .refuse => none
    | .store => some (.known (storedBits p v))
    | .unknown => some .unknown

/-- Reads that a write of `c` took effect before, oldest first: down to the next write each sees `c` instead, in the register that still
holds what it returned; a read of UNKNOWN takes a draw of its own (R30, R47). -/
def reviseReads (c : EsrContent) (l : List WindowAccess) (s : State) : State :=
  match l with
  | [] => s
  | .write _ _ :: _ => s
  | .read _ rt holds _ :: rest =>
    reviseReads c rest (if holds then { writeX s rt (valueOf s c) with draws := s.draws + 1 } else s)

/-- The window after a write of `c` by a name from a register. A write outside the window is ordered against all of it (R49). -/
def windowAfterWrite (n : EsrName) (rt : BitVec 5) (c : EsrContent) (s : State) : El3Window :=
  if inWindow s then
    let w := useRegister rt (windowNow s)
    { w with order := insertBehind (overtaken n (some rt) s) (.write n c) w.order }
  else windowClosed

/-- Store a content into register ESR_EL1 by a name (R47, R49): the newest write in the order of effect remains, and the reads that the
write took effect before have seen it. -/
def storeEsrEl1 (n : EsrName) (rt : BitVec 5) (c : EsrContent) (s : State) : State :=
  let passed := s.window.order.take (overtaken n (some rt) s)
  let r := reviseReads c passed.reverse s
  { r with
    esrEl1 := newestContent c passed
    window := windowAfterWrite n rt c s
    draws := if inWindow s then r.draws + 1 else r.draws }

/-- `ESR_EL1 <- x[t]` by a name, and completion (R160, R162). -/
def writeEsrEl1 (n : EsrName) (rt : BitVec 5) (s : State) : Result :=
  match contentWritten s.params (readX s rt) with
  | some c => if overtakesUse n rt s then .refused .unordered else .next (complete (storeEsrEl1 n rt c s))
  | none => .refused (.reservedEc (readX s rt))

/-! ### Register ESR_EL2 -/

/-- `x[t] <- ESR_EL2`, and completion (R160, R161). At EL3 without EL2 too: DESIGN CHOICE, R174 leaves it open [log 39]. -/
def readEsrEl2 (rt : BitVec 5) (s : State) : State := completeRead rt s.esrEl2 s

/-- `ESR_EL2 <- x[t]`, and completion (R160). Its fields are on another page: all 64 bits are stored (R33). At EL3 without EL2 too:
DESIGN CHOICE, R174 leaves it open [log 39]. -/
def writeEsrEl2 (rt : BitVec 5) (s : State) : State := completeWrite rt { s with esrEl2 := readX s rt }

/-! ### Taking an exception -/

/-- What the environment contributes to a syndrome (R115, R188). -/
def syndromeInputs (s : State) : SyndromeInputs := { debugState := s.env.debugState, tge := hcrTge s }

/-- Whether a record is one that an exception from a level could have, not UNPREDICTABLE, taken to EL1 (R28). -/
def allowedAtEl1 (p : Params) (fromEl : ExceptionLevel) (r : ExceptionRecord) : Bool :=
  decide (recordProblem p r = none) && decide (r.target = .el1) && decide (r.fromEl = fromEl) && !r.unpredictableAsUndefined

/-- The syndrome of an exception with an unknown reason: EC 0, IL 1, ISS 0 (R66, R182). -/
def unknownReasonSyndrome : BitVec 32 := 0x02000000

/-- The syndrome an UNPREDICTABLE instruction treated as UNDEFINED leaves in ESR_EL1 (R28): that of a free record from the same
level; where the draw is no such record, the one every level can produce [log 15]. -/
def unpredictableSyndrome (p : Params) (g : SyndromeInputs) (fromEl : ExceptionLevel) (n : Nat) : BitVec 32 :=
  if allowedAtEl1 p fromEl (Config.freeRecord n) then
    syndrome p g (Config.freeRecord n) (Config.freeValue n)
  else unknownReasonSyndrome

/-- The value an exception taken to EL1 writes (R26, R179): the syndrome with zero in [63:32] (R19). -/
def esrEl1Entry (s : State) (r : ExceptionRecord) : Word :=
  (0 : BitVec 32) ++
    (if r.unpredictableAsUndefined then unpredictableSyndrome s.params (syndromeInputs s) r.fromEl s.draws
     else syndrome s.params (syndromeInputs s) r (Config.freeValue s.draws))

/-- The value an exception taken to EL2 or EL3 writes in that level's register (R164, R179): the syndrome in [31:0]; the spec does not
state [63:32], nor R28's value for these registers, so they are free [log 13]. -/
def esrHigherEntry (s : State) (r : ExceptionRecord) : Word :=
  hiOf (Config.freeValue s.draws) ++
    (if r.unpredictableAsUndefined then loOf (Config.freeValue s.draws)
     else syndrome s.params (syndromeInputs s) r (Config.freeValue s.draws))

/-- The write of the target level's syndrome register (R179). An exception that is not taken to EL1 leaves ESR_EL1 unchanged. -/
def recordSyndrome (r : ExceptionRecord) (s : State) : State :=
  match r.target with
  | .el0 => s
  | .el1 => { s with esrEl1 := .known (esrEl1Entry s r), draws := s.draws + 1 }
  | .el2 => { s with esrEl2 := esrHigherEntry s r, draws := s.draws + 1 }
  | .el3 => { s with esrEl3 := esrHigherEntry s r, draws := s.draws + 1 }

/-- A level is entered (R223): PSTATE.EL is the target, `pc` the handler address the environment supplies (R163, R231; PR4) [log 12].
An exception entry is explicit synchronization (R48). -/
def enterLevel (target : ExceptionLevel) (s : State) : State :=
  { s with pstateEl := target, pc := handlerOf s target, window := windowClosed }

/-- TAKING AN EXCEPTION: the syndrome write and the entry, one step (R26, R179). -/
def enterException (r : ExceptionRecord) (s : State) : State := enterLevel r.target (recordSyndrome r s)

/-- `TakeException(rec)` for a record the environment delivers (R178, R179): refused where the rules exclude it. -/
def takeException (r : ExceptionRecord) (s : State) : Result :=
  match recordProblem s.params r with
  | some q => .refused (.badRecord q)
  | none => if recordFits s r then .next (enterException r s) else .refused (.badRecord .otherState)

/-- An exception that the instruction at `pc` raises: its address is the preferred return address (R163, R231). -/
def raiseHere (r : ExceptionRecord) (s : State) : State := enterException r { s with preferredReturn := s.pc }

/-- The level that takes a synchronous exception which the page routes no further (R163): the own level, EL1 from EL0, EL2 from EL0
under HCR_EL2.TGE (R180(d), TV91). From general knowledge in the spec: PRESUMED [log 11]. -/
def syncTarget (s : State) : ExceptionLevel :=
  match s.pstateEl with
  | .el0 => if hcrTge s then .el2 else .el1
  | .el1 => .el1
  | .el2 => .el2
  | .el3 => .el3

/-- The record of an exception with a class and no data, from the present level in AArch64 state. -/
def plainRecord (cls : ExcClass) (s : State) : ExceptionRecord :=
  { cls := cls, target := syncTarget s, fromEl := s.pstateEl }

/-- The outcome `UNDEFINED` (R163): an exception with an unknown reason; nothing else is written. -/
def undefinedAccess (s : State) : State := raiseHere (plainRecord .unknownReason s) s

/-- The record of `AArch64.SystemAccessTrap(EL2, 0x18)` for an accessor (R164): the SYS syndrome of the instruction itself. -/
def trapRecord (n : EsrName) (isRead : Bool) (rt : BitVec 5) (s : State) : ExceptionRecord :=
  { cls := .sysTrap, target := .el2, fromEl := s.pstateEl, op0 := tupleOp0, op1 := n.op1, crn := tupleCrn, crm := tupleCrm,
    op2 := tupleOp2, rt := .view rt, isRead := isRead }

/-- The outcome `AArch64.SystemAccessTrap(EL2, 0x18)` (R164). -/
def systemAccessTrap (n : EsrName) (isRead : Bool) (rt : BitVec 5) (s : State) : State :=
  raiseHere (trapRecord n isRead rt s) s

/-! ### NVMem[0x138] -/

/-- The record of a fault on the NVMem access (R44): the environment's, made a Data Abort or Watchpoint to EL2 that came from
VNCR_EL2 (R121, R153) [log 19]. Its `transfer` is kept, so ISV of ESR_EL2 can be 1 though the accessor is no load or store of R115's
list: DESIGN CHOICE, neither R44 nor R115 names this access [log 43]. -/
def nvFaultRecord (r : ExceptionRecord) (isWrite : Bool) (s : State) : ExceptionRecord :=
  { r with
    cls := if r.cls = .watchpoint then .watchpoint else .dataAbort
    target := .el2
    fromEl := s.pstateEl
    fromState := .aarch64
    iset := .a64
    instrLen := .bits32
    isWrite := isWrite
    isAtomic := false
    isCmOrAt := false
    unpredictableAsUndefined := false
    vncr := true }

/-- A fault on the NVMem access: nothing is written but the syndrome at EL2 (R44, TV85). -/
def nvFault (r : ExceptionRecord) (isWrite : Bool) (s : State) : Result :=
  match recordProblem s.params (nvFaultRecord r isWrite s) with
  | some q => .refused (.badRecord q)
  | none => .next (raiseHere (nvFaultRecord r isWrite s) s)

/-- `x[t] <- NVMem[0x138]`, and completion (R165). -/
def readNvMem (rt : BitVec 5) (s : State) : Result :=
  if nvBaseValid s.params then
    match s.env.nvReadFault with
    | some r => nvFault r false s
    | none => .next (completeRead rt (Memory.read64 s.params.nvBigEndian s.mem (nvAddress s.params)) s)
  else .refused .nvBase

/-- `NVMem[0x138] <- x[t]`, and completion (R165). -/
def writeNvMem (rt : BitVec 5) (s : State) : Result :=
  if nvBaseValid s.params then
    match s.env.nvWriteFault with
    | some r => nvFault r true s
    | none => .next (completeWrite rt { s with mem := Memory.write64 s.params.nvBigEndian s.mem (nvAddress s.params) (readX s rt) })
  else .refused .nvBase

/-! ### Exception return, and the AArch32 view -/

/-- EXCEPTION RETURN from the present level (R27, R217): from EL1 it makes ESR_EL1 UNKNOWN, from any other level it leaves it. Level and
`pc` are the environment's (R217: what it restores is not on the page) [log 33]. It is explicit synchronization (R48). -/
def exceptionReturn (target : ExceptionLevel) (pc : Word) (s : State) : State :=
  { s with
    esrEl1 := if s.pstateEl = .el1 then .unknown else s.esrEl1
    pstateEl := target
    pc := pc
    window := windowClosed }

/-- DFSR, the AArch32 view of ESR_EL1[31:0] (R32, D23): what a read of it by the environment sees. -/
def State.dfsr (s : State) : Option (BitVec 32) :=
  match s.esrEl1 with
  | .known v => some (loOf v)
  | .unknown => none

/-- A write of DFSR: a software write of ESR_EL1[31:0] that leaves [63:32] unchanged (R32, D23); where those were UNKNOWN they are
drawn once [log 20]. The environment may present one at any level, EL0 included: DESIGN CHOICE, since R32 gives DFSR no accessor
[log 20]. -/
def writeDfsr (v : BitVec 32) (s : State) : Result :=
  if s.params.haveAarch32 then
    match contentWritten s.params (hiOf (valueOf s s.esrEl1) ++ v) with
    | some c => .next { s with esrEl1 := c, window := windowClosed, draws := s.draws + 1 }
    | none => .refused (.reservedEc (hiOf (valueOf s s.esrEl1) ++ v))
  else .refused .aarch32Absent

end Sys2Proof.Machine
end

