-- ==== Sys2Proof/Machine/Accessors.lean ====
section
/-! DEFINITION. The meanings of the six accessors: each is the source's pseudocode, branch by branch (44_sysreg_access.md R170 to R175;
read by 00_scope.md R13: the first true branch alone executes). -/

namespace Sys2Proof.Machine

/-- `MRS <Xt>, ESR_EL1` (R170). -/
def execMrsEsrEl1 (rt : BitVec 5) (s : State) : Result :=
  match s.pstateEl with
  | .el0 => .next (undefinedAccess s)
  | .el1 =>
    if el2Enabled s && !el2UsesAArch32 s && hcrTrvm s then .next (systemAccessTrap .esrEl1 true rt s)
    else if el2Enabled s && !el2UsesAArch32 s && (hcrNv2 s && hcrNv1 s && hcrNv s) then readNvMem rt s
    else .next (readEsrEl1 .esrEl1 rt s)
  | .el2 => if hcrE2h s then .next (readEsrEl2 rt s) else .next (readEsrEl1 .esrEl1 rt s)
  | .el3 => .next (readEsrEl1 .esrEl1 rt s)

/-- `MSR ESR_EL1, <Xt>` (R171). -/
def execMsrEsrEl1 (rt : BitVec 5) (s : State) : Result :=
  match s.pstateEl with
  | .el0 => .next (undefinedAccess s)
  | .el1 =>
    if el2Enabled s && !el2UsesAArch32 s && hcrTvm s then .next (systemAccessTrap .esrEl1 false rt s)
    else if el2Enabled s && !el2UsesAArch32 s && (hcrNv2 s && hcrNv1 s && hcrNv s) then writeNvMem rt s
    else writeEsrEl1 .esrEl1 rt s
  | .el2 => if hcrE2h s then .next (writeEsrEl2 rt s) else writeEsrEl1 .esrEl1 rt s
  | .el3 => writeEsrEl1 .esrEl1 rt s

/-- `MRS <Xt>, ESR_EL12` (R172). The redirection to memory is tested before the trap, and there is no AArch32 guard. -/
def execMrsEsrEl12 (rt : BitVec 5) (s : State) : Result :=
  match s.pstateEl with
  | .el0 => .next (undefinedAccess s)
  | .el1 =>
    if el2Enabled s && (hcrNv2 s && !hcrNv1 s && hcrNv s) then readNvMem rt s
    else if el2Enabled s && hcrNv s then .next (systemAccessTrap .esrEl12 true rt s)
    else .next (undefinedAccess s)
  | .el2 => if el2Enabled s && hcrE2h s then .next (readEsrEl1 .esrEl12 rt s) else .next (undefinedAccess s)
  | .el3 => if el2Enabled s && hcrE2h s then .next (readEsrEl1 .esrEl12 rt s) else .next (undefinedAccess s)

/-- `MSR ESR_EL12, <Xt>` (R173). -/
def execMsrEsrEl12 (rt : BitVec 5) (s : State) : Result :=
  match s.pstateEl with
  | .el0 => .next (undefinedAccess s)
  | .el1 =>
    if el2Enabled s && (hcrNv2 s && !hcrNv1 s && hcrNv s) then writeNvMem rt s
    else if el2Enabled s && hcrNv s then .next (systemAccessTrap .esrEl12 false rt s)
    else .next (undefinedAccess s)
  | .el2 => if el2Enabled s && hcrE2h s then writeEsrEl1 .esrEl12 rt s else .next (undefinedAccess s)
  | .el3 => if el2Enabled s && hcrE2h s then writeEsrEl1 .esrEl12 rt s else .next (undefinedAccess s)

/-- `MRS <Xt>, ESR_EL2` (R174). With NV2 and NV the name reaches register ESR_EL1, whatever NV1. At EL3 it reaches ESR_EL2 also
where EL2 is not implemented: DESIGN CHOICE, R174 gives no behaviour there [log 39]. -/
def execMrsEsrEl2 (rt : BitVec 5) (s : State) : Result :=
  match s.pstateEl with
  | .el0 => .next (undefinedAccess s)
  | .el1 =>
    if el2Enabled s && (hcrNv2 s && hcrNv s) then .next (readEsrEl1 .esrEl2 rt s)
    else if el2Enabled s && hcrNv s then .next (systemAccessTrap .esrEl2 true rt s)
    else .next (undefinedAccess s)
  | .el2 => .next (readEsrEl2 rt s)
  | .el3 => .next (readEsrEl2 rt s)

/-- `MSR ESR_EL2, <Xt>` (R175). At EL3 without EL2 as `execMrsEsrEl2`: DESIGN CHOICE [log 39]. -/
def execMsrEsrEl2 (rt : BitVec 5) (s : State) : Result :=
  match s.pstateEl with
  | .el0 => .next (undefinedAccess s)
  | .el1 =>
    if el2Enabled s && (hcrNv2 s && hcrNv s) then writeEsrEl1 .esrEl2 rt s
    else if el2Enabled s && hcrNv s then .next (systemAccessTrap .esrEl2 false rt s)
    else .next (undefinedAccess s)
  | .el2 => .next (writeEsrEl2 rt s)
  | .el3 => .next (writeEsrEl2 rt s)

end Sys2Proof.Machine
end

