-- ==== Sys2Proof/Machine/Dispatch.lean ====
section
/-! DEFINITION. One arm per accessor. -/

namespace Sys2Proof.Machine

def exec (i : Instr) (s : State) : Host.Outcome State Fault Refusal :=
  match i with
  | .mrsEsrEl1 rt => Sys2Proof.Machine.execMrsEsrEl1 rt s
  | .msrEsrEl1 rt => Sys2Proof.Machine.execMsrEsrEl1 rt s
  | .mrsEsrEl12 rt => Sys2Proof.Machine.execMrsEsrEl12 rt s
  | .msrEsrEl12 rt => Sys2Proof.Machine.execMsrEsrEl12 rt s
  | .mrsEsrEl2 rt => Sys2Proof.Machine.execMrsEsrEl2 rt s
  | .msrEsrEl2 rt => Sys2Proof.Machine.execMsrEsrEl2 rt s

end Sys2Proof.Machine
end

