-- ==== Sys2Proof/Machine/Events.lean ====
section
/-! DEFINITION. What the environment's events do (92_eei_decisions.md D1, D2, D19, D20, D21). They land between two instructions. -/

namespace Sys2Proof.Machine

/-- An IRQ or FIQ taken to a level: an exception without an EC value writes no syndrome register (R179, R220) [log 21]. With
HCR_EL2.TGE in effect none goes from EL0 to EL1 (R180(d), R222(a)) [log 35]. -/
def takeInterrupt (target : ExceptionLevel) (s : State) : Result :=
  if !targetOk s.params { target := target, fromEl := s.pstateEl } then .refused (.badRecord .target)
  else if tgeAllows s s.pstateEl target then .next (enterLevel target s)
  else .refused (.badRecord .otherState)

/-- Registers written one after the other. -/
def writeRegisters (l : List (BitVec 5 × Word)) (s : State) : State :=
  match l with
  | [] => s
  | (t, v) :: rest => writeRegisters rest (writeX s t v)

/-- An instruction outside this spec has run: the environment presents the registers it reads and writes, its stores and the `pc` it
leaves. It is no writer of ESR_EL1 (R25) [log 22]. -/
def applyOther (e : OtherEffect) (s : State) : State :=
  { writeRegisters e.writes s with
    pc := e.pc
    mem := Memory.writeAll s.mem e.stores
    window := e.writes.foldl (fun w m => overwriteRegister m.1 w) (e.reads.foldl (fun w t => useRegister t w) s.window) }

/-- The environment's inputs change (R236). -/
def setEnvironment (env : Env) (s : State) : State := { s with env := env }

/-- `Reset()`: ESR_EL1 becomes UNKNOWN (R31, R227, R228); all other state is what the environment supplies (R228, R229). The
parameters are the implementation's and stay; what the environment presents next stays. -/
def applyReset (r : ResetInputs) (s : State) : State :=
  { s with
    esrEl1 := .unknown
    esrEl2 := r.esrEl2
    esrEl3 := r.esrEl3
    x := r.x
    pc := r.pc
    pstateEl := r.pstateEl
    preferredReturn := r.preferredReturn
    mem := Memory.writeAll [] r.bytes
    window := windowClosed
    env := r.env }

/-- `ContextSync` (R48): accesses before it and after it are in program order. -/
def contextSync (s : State) : State := { s with window := windowClosed }

/-- The effect of an event that is not an instruction word. -/
def applyEvent (i : Input) (s : State) : Result :=
  match i with
  | .execute _ => .next s
  | .exception r => takeException r s
  | .interrupt target => takeInterrupt target s
  | .exceptionReturn target pc => .next (exceptionReturn target pc s)
  | .contextSync => .next (contextSync s)
  | .dfsrWrite v => writeDfsr v s
  | .environment env => .next (setEnvironment env s)
  | .otherInstruction e => .next (applyOther e s)
  | .reset r => .next (applyReset r s)

end Sys2Proof.Machine
end

