-- ==== Sys2Proof/Machine/Fetch.lean ====
section
/-! DEFINITION. What happens before an accessor executes: the alignment of `pc`, and how a word is presented (70_reset_and_hazards.md
R231; 20_memory.md R52). -/

namespace Sys2Proof.Machine

/-- `pc` is a multiple of 4 (R231). -/
def pcAligned (s : State) : Bool := decide (s.pc.extractLsb' 0 2 = 0)

/-- A misaligned `pc` is reported as a PC alignment fault exception before any accessor executes (R231, R198) [log 24]. It is
no accessor that raises it, so `preferredReturn` stays. -/
def pcAlignmentFault (s : State) : State := enterException (plainRecord .pcAlignment s) s

/-- A state whose next step is given the word `w` at an aligned `pc`. -/
def presentWord (s : State) (w : InstrWord) : State :=
  { s with inputs := .execute w :: s.inputs, pc := s.pc &&& ~~~(3 : Word) }

end Sys2Proof.Machine
end

