-- ==== Sys2Proof/Machine/Step.lean ====
section
/-! DEFINITION. One step: the next thing the environment presents, an instruction word or an event (92_eei_decisions.md D1, D20, D21). -/

namespace Sys2Proof.Machine

/-- Execute the instruction word given at `pc`: a misaligned `pc` faults first (R231); a word that is none of the six is refused (R58,
R59). -/
def runWord (w : InstrWord) (s : State) : Result :=
  if pcAligned s then
    match decode w with
    | .ok i => exec i s
    | .error e => .refused (.outsideSpec e)
  else .next (pcAlignmentFault s)

/-- One step of the machine. -/
def step (s : State) : Host.Outcome State Fault Refusal :=
  match s.inputs with
  | [] => .fault .noInput
  | .execute w :: rest => runWord w { s with inputs := rest }
  | i :: rest => applyEvent i { s with inputs := rest }

/-- `s` with the instruction word presented to its next step [log 3]. A number that is no 32-bit word is no word of the six (R55): it is
presented as the word 0, which the decoder refuses. -/
def State.withFetchWord (s : State) (nbits w : Nat) : State :=
  presentWord s (if w % 2 ^ nbits < 2 ^ 32 then BitVec.ofNat 32 (w % 2 ^ nbits) else 0)

end Sys2Proof.Machine
end

