-- ==== Sys2Proof/Machine/Fields.lean ====
section
/-! DEFINITION. The register bit by bit: the four fields of ESR_EL1 (10_state.md R18) and the subfields of the 24 ISS layouts, each
with its bits, as the layout rules print them (40_iss_traps.md to 43_iss_fp_serror_debug.md). -/

namespace Sys2Proof.Machine

/-- One row of a bit table: a name and the bits [hi:lo] (R11). -/
structure FieldRow where
  name : String
  hi   : Nat
  lo   : Nat
deriving DecidableEq, Repr

/-- The fields of the register, most significant first (R18). -/
def esrFields : List FieldRow :=
  [⟨"RES0", 63, 32⟩, ⟨"EC", 31, 26⟩, ⟨"IL", 25, 25⟩, ⟨"ISS", 24, 0⟩]

/-- CV and COND, shared by six layouts (R64, R65). -/
def condRows : List FieldRow := [⟨"CV", 24, 24⟩, ⟨"COND", 23, 20⟩]

/-- imm16 layouts (R90, R95). -/
def imm16Rows : List FieldRow := [⟨"RES0", 24, 16⟩, ⟨"imm16", 15, 0⟩]

/-- The subfields of a layout, most significant first (R66 to R157). Bit [13] of DABT, WPT and SERR has its name with the feature only
(R121, R153, R140). -/
def issFields (p : Params) : IssLayout → List FieldRow
  | .unk | .sveAcc | .ill | .pac => [⟨"RES0", 24, 0⟩]
  | .wfx => condRows ++ [⟨"RES0", 19, 1⟩, ⟨"TI", 0, 0⟩]
  | .mcr => condRows ++ [⟨"Opc2", 19, 17⟩, ⟨"Opc1", 16, 14⟩, ⟨"CRn", 13, 10⟩, ⟨"Rt", 9, 5⟩, ⟨"CRm", 4, 1⟩, ⟨"Direction", 0, 0⟩]
  | .mcrr => condRows ++ [⟨"Opc1", 19, 16⟩, ⟨"RES0", 15, 15⟩, ⟨"Rt2", 14, 10⟩, ⟨"Rt", 9, 5⟩, ⟨"CRm", 4, 1⟩, ⟨"Direction", 0, 0⟩]
  | .ldc => condRows ++ [⟨"imm8", 19, 12⟩, ⟨"RES0", 11, 10⟩, ⟨"Rn", 9, 5⟩, ⟨"Offset", 4, 4⟩, ⟨"AM", 3, 1⟩, ⟨"Direction", 0, 0⟩]
  | .fpAcc => condRows ++ [⟨"RES0", 19, 0⟩]
  | .svc | .smc64 => imm16Rows
  | .smc32 => condRows ++ [⟨"CCKNOWNPASS", 19, 19⟩, ⟨"RES0", 18, 0⟩]
  | .sys => [⟨"RES0", 24, 22⟩, ⟨"Op0", 21, 20⟩, ⟨"Op2", 19, 17⟩, ⟨"Op1", 16, 14⟩, ⟨"CRn", 13, 10⟩, ⟨"Rt", 9, 5⟩, ⟨"CRm", 4, 1⟩,
      ⟨"Direction", 0, 0⟩]
  | .impEl3 => [⟨"IMPLEMENTATION DEFINED", 24, 0⟩]
  | .iabt => [⟨"RES0", 24, 13⟩, ⟨"SET", 12, 11⟩, ⟨"FnV", 10, 10⟩, ⟨"EA", 9, 9⟩, ⟨"RES0", 8, 8⟩, ⟨"S1PTW", 7, 7⟩, ⟨"RES0", 6, 6⟩,
      ⟨"IFSC", 5, 0⟩]
  | .dabt => [⟨"ISV", 24, 24⟩, ⟨"SAS", 23, 22⟩, ⟨"SSE", 21, 21⟩, ⟨"SRT", 20, 16⟩, ⟨"SF", 15, 15⟩, ⟨"AR", 14, 14⟩,
      ⟨if p.haveNv2 then "VNCR" else "RES0", 13, 13⟩, ⟨"SET", 12, 11⟩, ⟨"FnV", 10, 10⟩, ⟨"EA", 9, 9⟩, ⟨"CM", 8, 8⟩,
      ⟨"S1PTW", 7, 7⟩, ⟨"WnR", 6, 6⟩, ⟨"DFSC", 5, 0⟩]
  | .fpExc => [⟨"RES0", 24, 24⟩, ⟨"TFV", 23, 23⟩, ⟨"RES0", 22, 11⟩, ⟨"VECITR", 10, 8⟩, ⟨"IDF", 7, 7⟩, ⟨"RES0", 6, 5⟩,
      ⟨"IXF", 4, 4⟩, ⟨"UFF", 3, 3⟩, ⟨"OFF", 2, 2⟩, ⟨"DZF", 1, 1⟩, ⟨"IOF", 0, 0⟩]
  | .serr => [⟨"IDS", 24, 24⟩, ⟨"RES0", 23, 14⟩, ⟨if p.haveIesb then "IESB" else "RES0", 13, 13⟩, ⟨"AET", 12, 10⟩, ⟨"EA", 9, 9⟩,
      ⟨"RES0", 8, 6⟩, ⟨"DFSC", 5, 0⟩]
  | .bkpt => [⟨"RES0", 24, 6⟩, ⟨"IFSC", 5, 0⟩]
  | .sstep => [⟨"ISV", 24, 24⟩, ⟨"RES0", 23, 7⟩, ⟨"EX", 6, 6⟩, ⟨"IFSC", 5, 0⟩]
  | .wpt => [⟨"RES0", 24, 14⟩, ⟨if p.haveNv2 then "VNCR" else "RES0", 13, 13⟩, ⟨"RES0", 12, 9⟩, ⟨"CM", 8, 8⟩, ⟨"RES0", 7, 7⟩,
      ⟨"WnR", 6, 6⟩, ⟨"DFSC", 5, 0⟩]
  | .brk => [⟨"RES0", 24, 16⟩, ⟨"Comment", 15, 0⟩]
  | .eret => [⟨"RES0", 24, 2⟩, ⟨"ERET", 1, 1⟩, ⟨"ERETA", 0, 0⟩]
  | .bti => [⟨"RES0", 24, 2⟩, ⟨"BTYPE", 1, 0⟩]

/-- The value of a subfield of an ISS. -/
def issField (v : BitVec 25) (hi lo : Nat) : BitVec (hi + 1 - lo) := v.extractLsb' lo (hi + 1 - lo)

/-- Whether rows, most significant first, cover the bits from `top - 1` down to 0, each bit once. -/
def tiles : Nat → List FieldRow → Bool
  | top, [] => decide (top = 0)
  | top, r :: rest => decide (r.hi + 1 = top) && decide (r.lo ≤ r.hi) && tiles r.lo rest

/-- The RES0 rows of a layout are zero in a value (R22, V2). SERR has them only while IDS is 0 (R138, R139), and RES0 everywhere
without the RAS Extension. -/
def res0RowsZero (rows : List FieldRow) (v : BitVec 25) : Bool :=
  rows.all fun r => decide (r.name ≠ "RES0") || decide (issField v r.hi r.lo = 0)

end Sys2Proof.Machine
end

