-- ==== Sys2Proof/Safety.lean ====
section
/-! DEFINITION. What counts as a safe run, in the terms the statements use. -/

namespace Sys2Proof.Machine

/-- The step has a next state: it neither faults nor is refused. -/
def Proceeds (s : State) : Prop := ∃ t, step s = .next t

/-! ### The decision table of 44_sysreg_access.md R176 -/

/-- The outcome of an accessor: register ESR_EL1, register ESR_EL2, the cell NVMem[0x138], the trap to EL2, or UNDEFINED (R176). -/
inductive Reach where
  | reg1 | reg2 | mem | trap | undef
deriving DecidableEq, Repr

/-- The row ESR_EL1 of R176; T is HCR_EL2.TRVM for a read and HCR_EL2.TVM for a write. -/
def reachEsrEl1 (isRead : Bool) (s : State) : Reach :=
  match s.pstateEl with
  | .el0 => .undef
  | .el1 =>
    if el2Enabled s && !el2UsesAArch32 s && (if isRead then hcrTrvm s else hcrTvm s) then .trap
    else if el2Enabled s && !el2UsesAArch32 s && hcrNv2 s && hcrNv1 s && hcrNv s then .mem
    else .reg1
  | .el2 => if hcrE2h s then .reg2 else .reg1
  | .el3 => .reg1

/-- The row ESR_EL12 of R176. -/
def reachEsrEl12 (s : State) : Reach :=
  match s.pstateEl with
  | .el0 => .undef
  | .el1 =>
    if el2Enabled s && hcrNv2 s && !hcrNv1 s && hcrNv s then .mem
    else if el2Enabled s && hcrNv s then .trap
    else .undef
  | .el2 | .el3 => if el2Enabled s && hcrE2h s then .reg1 else .undef

/-- The row ESR_EL2 of R176. -/
def reachEsrEl2 (s : State) : Reach :=
  match s.pstateEl with
  | .el0 => .undef
  | .el1 =>
    if el2Enabled s && hcrNv2 s && hcrNv s then .reg1
    else if el2Enabled s && hcrNv s then .trap
    else .undef
  | .el2 | .el3 => .reg2

/-- What an accessor reaches in a state (R176). -/
def reachOf (i : Instr) (s : State) : Reach :=
  match i.name with
  | .esrEl1 => reachEsrEl1 i.isRead s
  | .esrEl12 => reachEsrEl12 s
  | .esrEl2 => reachEsrEl2 s

/-- ESR_EL2[31:0] after a trap of an accessor with t = 0, as the table of R164 prints it; the value for t is this plus t * 32. -/
def trapSyndromeBase : Instr → BitVec 32
  | .mrsEsrEl1 _  => 0x62301405
  | .msrEsrEl1 _  => 0x62301404
  | .mrsEsrEl12 _ => 0x62315405
  | .msrEsrEl12 _ => 0x62315404
  | .mrsEsrEl2 _  => 0x62311405
  | .msrEsrEl2 _  => 0x62311404

/-! ### Frames -/

/-- Parameters, the environment's inputs and what it presents next are as before. -/
def SameEnvironment (s t : State) : Prop := t.params = s.params ∧ t.env = s.env ∧ t.inputs = s.inputs

/-- Every general-purpose register reads as before. -/
def SameRegisters (s t : State) : Prop := ∀ r, readX t r = readX s r

/-- Every general-purpose register but one reads as before. -/
def SameRegistersBut (rt : BitVec 5) (s t : State) : Prop := ∀ r, r ≠ rt → readX t r = readX s r

/-- Every byte of memory reads as before. -/
def SameMemory (s t : State) : Prop := ∀ a, Memory.read t.mem a = Memory.read s.mem a

/-- An accessor has completed (R160): `pc` is 4 further, and the level, ESR_EL3, the preferred return address and the environment are as
before. -/
def Completed (s t : State) : Prop :=
  t.pc = s.pc + 4 ∧ t.pstateEl = s.pstateEl ∧ t.esrEl3 = s.esrEl3 ∧ t.preferredReturn = s.preferredReturn ∧ SameEnvironment s t

/-- An exception that the instruction at `pc` raises has been taken to a level (R163, R223, R231): the level and its handler are entered,
the instruction's address is the preferred return address, and no register, memory byte or input has changed. -/
def EnteredFromHere (target : ExceptionLevel) (s t : State) : Prop :=
  t.pstateEl = target ∧ t.pc = handlerOf s target ∧ t.preferredReturn = s.pc ∧ SameRegisters s t ∧ SameMemory s t ∧
    SameEnvironment s t

/-- An exception that the environment delivers has been taken to a level: as above, with the preferred return address as before. -/
def EnteredByEvent (target : ExceptionLevel) (s t : State) : Prop :=
  t.pstateEl = target ∧ t.pc = handlerOf s target ∧ t.preferredReturn = s.preferredReturn ∧ SameRegisters s t ∧
    SameMemory s t ∧ t.params = s.params ∧ t.env = s.env

/-- `w` is what ESR_EL1 stores of a written value (R19, R162): bits [31:0] as they are, bits [63:32] with RES0_HI_WRITABLE and zero
without. -/
def Stores (p : Params) (v w : Word) : Prop := loOf w = loOf v ∧ hiOf w = if p.res0HiWritable then hiOf v else 0

/-- `v` is what a register-number subfield of a record may hold for a register operand: the number that the record gives as an AArch64
view (R178); the AArch64 view of an AArch32 register (R23); for descriptor 0b1111 the value 0b11111 or, where the instruction was
UNPREDICTABLE, the view of a register that might have been used. -/
def ReportsRegister (r : ExceptionRecord) (reg : RegDesc) (v : BitVec 5) : Prop :=
  match reg with
  | .view n => v = n
  | .a32 a =>
    if a = 0b1111 then
      v = 0b11111 ∨ (r.unpredictable = true ∧ ∃ m ∈ r.usable, m.2 ≠ 0b1111 ∧ v = Config.a64View m.1 m.2)
    else v = Config.a64View r.mode a

/-! ### Invariants -/

/-- A content of ESR_EL1 obeys RES0 on [63:32] (R19): zero unless RES0_HI_WRITABLE. -/
def contentRes0 (p : Params) : EsrContent → Prop
  | .known v => p.res0HiWritable = false → hiOf v = 0
  | .unknown => True

/-- A content of ESR_EL1 holds no reserved EC value (R213), unless CU_RESERVED_EC lets software store one. -/
def contentEcDefined (p : Params) : EsrContent → Prop
  | .known v => p.cuReservedEc ≠ .store → ecDefined p (ecOf v) = true
  | .unknown => True

/-- A property of every content the machine may hold for ESR_EL1: the register's, and those of the EL3 window. -/
def allContents (P : EsrContent → Prop) (s : State) : Prop :=
  P s.esrEl1 ∧ (s.window.order ≠ [] → P s.window.before) ∧ ∀ n c, WindowAccess.write n c ∈ s.window.order → P c

/-- The memory behind NVMem is in its canonical form. -/
def MemoryInv (s : State) : Prop := Memory.wf s.mem = true

/-- R19 on every content: bits [63:32] of ESR_EL1 read 0 unless RES0_HI_WRITABLE. -/
def Res0Inv (s : State) : Prop := allContents (contentRes0 s.params) s

/-- R213 on every content: no reserved EC value stands in ESR_EL1 unless software was let store it. -/
def ReservedEcInv (s : State) : Prop := allContents (contentEcDefined s.params) s

end Sys2Proof.Machine
end

