-- ==== Sys2Proof/WellFormed.lean ====
section
/-! DEFINITION. Well-formed instructions. The one operand is the 5-bit number of `<Xt>` and every value of it is legal (30_encoding.md
R55, R56; 0b11111 is XZR, R34), so the type `Instr` already holds exactly the well-formed accessors and the predicate refuses none.
The ill-formed values of this hardware are exception records: Machine/RecordCheck.lean checks those. -/

namespace Sys2Proof

/-- An accessor is well formed: its operand number is one of 0 to 31 (R56). It holds of every term, by the operand's type. -/
def Instr.wellFormed : Instr → Bool
  | .mrsEsrEl1 t | .msrEsrEl1 t | .mrsEsrEl12 t | .msrEsrEl12 t | .mrsEsrEl2 t | .msrEsrEl2 t => decide (t.toNat < 32)

end Sys2Proof
end

