-- ==== Sys2Proof/Certificates/Slice0/Obligations.lean ====
section
/-! DEFINITION. The statements for the provers. Each docstring names the rules of spec/ it formalises, or the log entry where it states
a choice of the model. -/

open Sys2Proof Sys2Proof.Machine

/-! ### Decoding and encoding (30_encoding.md) -/

/-- Decoding the encoding of an accessor gives it back, for every operand number (R54 to R56, R58). -/
def Obligations.DecodeOfEncode : Prop :=
  ∀ i : Instr, i.wellFormed = true → decode (encode i) = .ok i

/-- Every word that decodes is the encoding of what it decodes to, so no bit is dropped and no two words are one accessor (R54, R55). -/
def Obligations.EncodeOfDecode : Prop :=
  ∀ (w : InstrWord) (i : Instr), decode w = .ok i → encode i = w

/-- A word selects an accessor exactly when it matches one of the six rows under the mask of opcode_table.json (R55, R58). -/
def Obligations.DecodesExactlyTheSixRows : Prop :=
  ∀ w : InstrWord, (∃ i, decode w = .ok i) ↔
    w &&& 0xFFFFFFE0 ∈ [(0xD5385200 : InstrWord), 0xD5185200, 0xD53D5200, 0xD51D5200, 0xD53C5200, 0xD51C5200]

/-- A few words of R55, written out, decode to the accessors they stand for (TV70 to TV76). -/
def Obligations.WrittenWordsDecode : Prop :=
  decode 0xD5385200 = .ok (.mrsEsrEl1 0) ∧ decode 0xD5185207 = .ok (.msrEsrEl1 7) ∧ decode 0xD53D5203 = .ok (.mrsEsrEl12 3) ∧
    decode 0xD51D521F = .ok (.msrEsrEl12 31) ∧ decode 0xD53C5206 = .ok (.mrsEsrEl2 6) ∧ decode 0xD51C521E = .ok (.msrEsrEl2 30)

/-! ### A step -/

/-- A step that is given a word at an aligned `pc` runs the accessor the word decodes to, on the state without that word (R52, R58,
R231; log 3). -/
def Obligations.StepRunsTheDecodedInstruction : Prop :=
  ∀ (s : State) (w : InstrWord) (rest : List Input) (i : Instr),
    s.inputs = .execute w :: rest → s.pc.toNat % 4 = 0 → decode w = .ok i → i.wellFormed = true →
      step s = exec i { s with inputs := rest }

/-- A word that is none of the six rows is refused (R58, R59; 93_implementation_defined.md V7). -/
def Obligations.OtherWordsAreRefused : Prop :=
  ∀ (s : State) (w : InstrWord) (rest : List Input),
    s.inputs = .execute w :: rest → s.pc.toNat % 4 = 0 →
    w &&& 0xFFFFFFE0 ∉ [(0xD5385200 : InstrWord), 0xD5185200, 0xD53D5200, 0xD51D5200, 0xD53C5200, 0xD51C5200] →
      ∃ e, step s = .refused (.outsideSpec e)

/-- A misaligned `pc` is a PC alignment fault before the word is looked at (R231), whose syndrome at EL1 is R198's. The rest is the
model's choice: that the own level takes it, EL1 from EL0 (EL2 under HCR_EL2.TGE), is log 24; the level and `pc` that the entry leaves
are log 12; the value in ESR_EL2[31:0] or ESR_EL3[31:0] is log 13. -/
def Obligations.MisalignedPcFaultsFirst : Prop :=
  ∀ (s : State) (w : InstrWord) (rest : List Input),
    s.inputs = .execute w :: rest → s.pc.toNat % 4 ≠ 0 →
      ∃ t, step s = .next t ∧ EnteredByEvent (syncTarget s) s t ∧ t.inputs = rest ∧
        (syncTarget s = .el1 → t.esrEl1 = .known 0x8A000000 ∧ t.esrEl2 = s.esrEl2 ∧ t.esrEl3 = s.esrEl3) ∧
        (syncTarget s = .el2 → t.esrEl1 = s.esrEl1 ∧ loOf t.esrEl2 = 0x8A000000 ∧ t.esrEl3 = s.esrEl3) ∧
        (syncTarget s = .el3 → t.esrEl1 = s.esrEl1 ∧ t.esrEl2 = s.esrEl2 ∧ loOf t.esrEl3 = 0x8A000000)

/-! ### The accessors (44_sysreg_access.md) -/

/-- MRS by each name (mrsEsrEl1, mrsEsrEl12, mrsEsrEl2), where it reaches register ESR_EL1 (R176) and no cross-name write is unordered
against it (R47), reads the register's content into `<Xt>` (R160, R161, R170, R172, R174): X31 discards it, and nothing else
changes. -/
def Obligations.MrsReadsEsrEl1 : Prop :=
  ∀ (i : Instr) (s : State) (v : Word),
    i.isRead = true → reachOf i s = .reg1 → readRaces i.name s = false → s.esrEl1 = .known v →
      ∃ t, exec i s = .next t ∧ readX t i.rt = (if i.rt = 31 then 0 else v) ∧ SameRegistersBut i.rt s t ∧
        t.esrEl1 = s.esrEl1 ∧ t.esrEl2 = s.esrEl2 ∧ SameMemory s t ∧ Completed s t

/-- MRS of register ESR_EL1 while it is UNKNOWN completes with some value, whose bits [63:32] are zero unless RES0_HI_WRITABLE, and
the register stays UNKNOWN (R30, R161). -/
def Obligations.MrsOfUnknownCompletes : Prop :=
  ∀ (i : Instr) (s : State),
    i.isRead = true → reachOf i s = .reg1 → readRaces i.name s = false → s.esrEl1 = .unknown →
      ∃ t, exec i s = .next t ∧ (s.params.res0HiWritable = false → hiOf (readX t i.rt) = 0) ∧ SameRegistersBut i.rt s t ∧
        t.esrEl1 = .unknown ∧ t.esrEl2 = s.esrEl2 ∧ SameMemory s t ∧ Completed s t

/-- MSR by each name (msrEsrEl1, msrEsrEl12, msrEsrEl2), where it reaches register ESR_EL1 and the EC of the value is defined, stores
the value: bits [31:0] as they are, bits [63:32] with RES0_HI_WRITABLE and zero without (R160, R162, R171, R173, R175, R19). The last
hypothesis keeps out the accesses that R47 leaves unordered: those have statements of their own. -/
def Obligations.MsrWritesEsrEl1 : Prop :=
  ∀ (i : Instr) (s : State),
    i.isRead = false → reachOf i s = .reg1 → ecDefined s.params (ecOf (readX s i.rt)) = true → writeRaces i.name i.rt s = false →
      ∃ t w, exec i s = .next t ∧ t.esrEl1 = .known w ∧ Stores s.params (readX s i.rt) w ∧
        SameRegisters s t ∧ t.esrEl2 = s.esrEl2 ∧ SameMemory s t ∧ Completed s t

/-- MSR of a reserved EC value to register ESR_EL1 follows CU_RESERVED_EC (R213, R162): `refuse` refuses the step, `store` holds the
value, all 64 bits as a defined one (R19), `unknown` makes the register UNKNOWN. -/
def Obligations.MsrOfReservedEc : Prop :=
  ∀ (i : Instr) (s : State),
    i.isRead = false → reachOf i s = .reg1 → ecDefined s.params (ecOf (readX s i.rt)) = false → writeRaces i.name i.rt s = false →
      (s.params.cuReservedEc = .refuse → exec i s = .refused (.reservedEc (readX s i.rt))) ∧
      (s.params.cuReservedEc = .store →
        ∃ t w, exec i s = .next t ∧ t.esrEl1 = .known w ∧ Stores s.params (readX s i.rt) w ∧ SameRegisters s t ∧
          t.esrEl2 = s.esrEl2 ∧ SameMemory s t ∧ Completed s t) ∧
      (s.params.cuReservedEc = .unknown →
        ∃ t, exec i s = .next t ∧ t.esrEl1 = .unknown ∧ SameRegisters s t ∧ t.esrEl2 = s.esrEl2 ∧ SameMemory s t ∧ Completed s t)

/-- MRS by the names ESR_EL1 and ESR_EL2 (mrsEsrEl1, mrsEsrEl2), where they reach register ESR_EL2, reads its 64 bits (R161, R170,
R174). That the name ESR_EL2 does so at EL3 without EL2 too is the model's choice, log 39: R174 leaves it open. -/
def Obligations.MrsReadsEsrEl2 : Prop :=
  ∀ (i : Instr) (s : State),
    i.isRead = true → reachOf i s = .reg2 →
      ∃ t, exec i s = .next t ∧ readX t i.rt = (if i.rt = 31 then 0 else s.esrEl2) ∧ SameRegistersBut i.rt s t ∧
        t.esrEl1 = s.esrEl1 ∧ t.esrEl2 = s.esrEl2 ∧ SameMemory s t ∧ Completed s t

/-- MSR by the names ESR_EL1 and ESR_EL2 (msrEsrEl1, msrEsrEl2), where they reach register ESR_EL2, writes its 64 bits and leaves
ESR_EL1 (R171, R175). That the name ESR_EL2 does so at EL3 without EL2 too is the model's choice, log 39: R174 leaves it open. -/
def Obligations.MsrWritesEsrEl2 : Prop :=
  ∀ (i : Instr) (s : State),
    i.isRead = false → reachOf i s = .reg2 →
      ∃ t, exec i s = .next t ∧ t.esrEl2 = readX s i.rt ∧ SameRegisters s t ∧ t.esrEl1 = s.esrEl1 ∧ SameMemory s t ∧ Completed s t

/-- MRS by the names ESR_EL1 and ESR_EL12 (mrsEsrEl1, mrsEsrEl12), where they reach NVMem[0x138] at a valid base and the access does
not fault, reads the eight bytes at NV_BASE + 0x138 in the order NV_BIGENDIAN gives (R39 to R41, R165). Register ESR_EL1 is not
touched, UNKNOWN or not. -/
def Obligations.MrsReadsNvMem : Prop :=
  ∀ (i : Instr) (s : State),
    i.isRead = true → reachOf i s = .mem → s.params.nvBase.toNat % 8 = 0 → s.params.nvBase.toNat ≤ 2 ^ 64 - 0x140 →
    s.env.nvReadFault = none →
      ∃ t, exec i s = .next t ∧
        (i.rt ≠ 31 → ∀ k < 8, (readX t i.rt).extractLsb' (8 * (if s.params.nvBigEndian then 7 - k else k)) 8 =
          Memory.read s.mem (s.params.nvBase.toNat + 0x138 + k)) ∧
        (i.rt = 31 → readX t i.rt = 0) ∧ SameRegistersBut i.rt s t ∧
        t.esrEl1 = s.esrEl1 ∧ t.esrEl2 = s.esrEl2 ∧ SameMemory s t ∧ Completed s t

/-- MSR by the names ESR_EL1 and ESR_EL12 (msrEsrEl1, msrEsrEl12), where they reach NVMem[0x138] at a valid base and the access does
not fault, stores the eight bytes of `x[t]` at NV_BASE + 0x138 in the order NV_BIGENDIAN gives and leaves every other byte and
register ESR_EL1 (R39 to R41, R165). The memory's canonical form is the premise `MemoryInv`. -/
def Obligations.MsrWritesNvMem : Prop :=
  ∀ (i : Instr) (s : State),
    MemoryInv s → i.isRead = false → reachOf i s = .mem → s.params.nvBase.toNat % 8 = 0 →
    s.params.nvBase.toNat ≤ 2 ^ 64 - 0x140 → s.env.nvWriteFault = none →
      ∃ t, exec i s = .next t ∧
        (∀ k < 8, Memory.read t.mem (s.params.nvBase.toNat + 0x138 + k) =
          (readX s i.rt).extractLsb' (8 * (if s.params.nvBigEndian then 7 - k else k)) 8) ∧
        (∀ a, a < s.params.nvBase.toNat + 0x138 ∨ s.params.nvBase.toNat + 0x140 ≤ a →
          Memory.read t.mem a = Memory.read s.mem a) ∧
        SameRegisters s t ∧ t.esrEl1 = s.esrEl1 ∧ t.esrEl2 = s.esrEl2 ∧ Completed s t

/-- What MSR stores in NVMem[0x138], MRS by the same name reads back whole, whatever RES0_HI_WRITABLE (R165; TV82, TV86). -/
def Obligations.NvMemReadsBack : Prop :=
  ∀ (i j : Instr) (s : State),
    MemoryInv s → i.isRead = false → j.isRead = true → i.name = j.name → reachOf i s = .mem → reachOf j s = .mem →
    s.params.nvBase.toNat % 8 = 0 → s.params.nvBase.toNat ≤ 2 ^ 64 - 0x140 →
    s.env.nvWriteFault = none → s.env.nvReadFault = none →
      ∃ t u, exec i s = .next t ∧ exec j t = .next u ∧ (j.rt ≠ 31 → readX u j.rt = readX s i.rt) ∧ u.esrEl1 = s.esrEl1

/-- An NVMem access with a base that is no multiple of 8 or too high is refused (R42, R167, D4). -/
def Obligations.InvalidNvBaseIsRefused : Prop :=
  ∀ (i : Instr) (s : State),
    reachOf i s = .mem → s.params.nvBase.toNat % 8 ≠ 0 ∨ 2 ^ 64 - 0x140 < s.params.nvBase.toNat →
      exec i s = .refused .nvBase

/-- A fault on the NVMem access is taken to EL2: ESR_EL1, the registers and the memory are unchanged, and bit [13], VNCR, is 1 in the
syndrome written to ESR_EL2 (R44, R121, R153, TV85). Model choices: the record's form is log 19, its place in ESR_EL2 log 13, the level
and `pc` that the entry leaves log 12. -/
def Obligations.NvMemFaultGoesToEl2 : Prop :=
  ∀ (i : Instr) (s : State) (r : ExceptionRecord),
    reachOf i s = .mem → s.params.nvBase.toNat % 8 = 0 → s.params.nvBase.toNat ≤ 2 ^ 64 - 0x140 →
    (if i.isRead then s.env.nvReadFault else s.env.nvWriteFault) = some r →
    recordProblem s.params (nvFaultRecord r (!i.isRead) s) = none →
      ∃ t, exec i s = .next t ∧ EnteredFromHere .el2 s t ∧ t.esrEl1 = s.esrEl1 ∧ t.esrEl3 = s.esrEl3 ∧
        t.esrEl2.getLsbD 13 = true ∧ ecOf t.esrEl2 = (if r.cls = .watchpoint then 0x34 else 0x24)

/-- An accessor that is trapped writes the SYS syndrome of the instruction itself to ESR_EL2[31:0], as the table of R164 prints it,
and enters EL2; ESR_EL1, the registers and the memory are unchanged (R164, R176; TV50 to TV61). That `pc` becomes the environment's
handler of EL2 is the model's choice, log 12. -/
def Obligations.TrappedAccessorReportsItself : Prop :=
  ∀ (i : Instr) (s : State),
    reachOf i s = .trap →
      ∃ t, exec i s = .next t ∧ EnteredFromHere .el2 s t ∧ t.esrEl1 = s.esrEl1 ∧ t.esrEl3 = s.esrEl3 ∧
        loOf t.esrEl2 = trapSyndromeBase i + i.rt.setWidth 32 * 32

/-- An UNDEFINED accessor raises an exception with an unknown reason and writes nothing else; at EL1 the syndrome is 0x02000000 (R163,
R66, TV90 to TV94). Model choices: the level that takes it is R163's, from general knowledge, log 11; the handler `pc` is log 12; the
value in ESR_EL2[31:0] beyond TV91, and in ESR_EL3[31:0], is log 13. -/
def Obligations.UndefinedAccessorRaises : Prop :=
  ∀ (i : Instr) (s : State),
    reachOf i s = .undef →
      ∃ t, exec i s = .next t ∧ EnteredFromHere (syncTarget s) s t ∧
        (syncTarget s = .el1 → t.esrEl1 = .known 0x02000000 ∧ t.esrEl2 = s.esrEl2 ∧ t.esrEl3 = s.esrEl3) ∧
        (syncTarget s = .el2 → t.esrEl1 = s.esrEl1 ∧ loOf t.esrEl2 = 0x02000000 ∧ t.esrEl3 = s.esrEl3) ∧
        (syncTarget s = .el3 → t.esrEl1 = s.esrEl1 ∧ t.esrEl2 = s.esrEl2 ∧ loOf t.esrEl3 = 0x02000000)

/-- At EL0 every accessor is UNDEFINED, and what it does tells EL0 nothing of ESR_EL1: two runs that differ in the register's content
alone end in states that differ in nothing but that content, and not at all when EL1 is entered (R177, R163). -/
def Obligations.El0LearnsNothingOfEsrEl1 : Prop :=
  ∀ (i : Instr) (s : State) (c : EsrContent),
    s.pstateEl = .el0 →
      reachOf i s = .undef ∧
        ∃ t u, exec i s = .next t ∧ exec i { s with esrEl1 := c } = .next u ∧ u = { t with esrEl1 := u.esrEl1 } ∧
          (t.pstateEl = .el1 → u = t)

/-- Where each level gets by which name, every outcome with its exact condition (R176, R177). EL0 gets nowhere. At EL1, with EL2
enabled, the ESR_EL1 name is trapped by TRVM or TVM or goes to memory, the ESR_EL12 name to memory or the trap, the ESR_EL2 name to
register ESR_EL1 or the trap. At EL2 with E2H the ESR_EL1 name reaches register ESR_EL2. At EL3 the ESR_EL2 name reaches register ESR_EL2
without EL2 too: the model's choice, log 39. Without EL2 the ESR_EL1 name reaches register ESR_EL1 from EL1 and EL3 and ESR_EL12 is
UNDEFINED; without ARMv8.3-NV or ARMv8.4-NV nothing reaches memory, and without ARMv8.3-NV the ESR_EL12 and ESR_EL2 names are UNDEFINED
at EL1. -/
def Obligations.OutcomesByLevel : Prop :=
  ∀ (i : Instr) (s : State),
    (s.pstateEl = .el0 → reachOf i s = .undef) ∧
      (s.pstateEl = .el1 → i.name = .esrEl1 →
        (reachOf i s = .trap ↔ el2Enabled s = true ∧ el2UsesAArch32 s = false ∧
          (if i.isRead then hcrTrvm s else hcrTvm s) = true) ∧
        (reachOf i s = .mem ↔ el2Enabled s = true ∧ el2UsesAArch32 s = false ∧
          (if i.isRead then hcrTrvm s else hcrTvm s) = false ∧ hcrNv2 s = true ∧ hcrNv1 s = true ∧ hcrNv s = true) ∧
        (reachOf i s = .reg1 ↔ ¬(el2Enabled s = true ∧ el2UsesAArch32 s = false ∧
          ((if i.isRead then hcrTrvm s else hcrTvm s) = true ∨ (hcrNv2 s = true ∧ hcrNv1 s = true ∧ hcrNv s = true))))) ∧
      (s.pstateEl = .el1 → i.name = .esrEl12 →
        (reachOf i s = .mem ↔ el2Enabled s = true ∧ hcrNv2 s = true ∧ hcrNv1 s = false ∧ hcrNv s = true) ∧
        (reachOf i s = .trap ↔ el2Enabled s = true ∧ hcrNv s = true ∧ ¬(hcrNv2 s = true ∧ hcrNv1 s = false)) ∧
        (reachOf i s = .undef ↔ ¬(el2Enabled s = true ∧ hcrNv s = true))) ∧
      (s.pstateEl = .el1 → i.name = .esrEl2 →
        (reachOf i s = .reg1 ↔ el2Enabled s = true ∧ hcrNv2 s = true ∧ hcrNv s = true) ∧
        (reachOf i s = .trap ↔ el2Enabled s = true ∧ hcrNv s = true ∧ hcrNv2 s = false) ∧
        (reachOf i s = .undef ↔ ¬(el2Enabled s = true ∧ hcrNv s = true))) ∧
      (s.pstateEl = .el2 → i.name = .esrEl1 →
        (reachOf i s = .reg1 ↔ hcrE2h s = false) ∧ (reachOf i s = .reg2 ↔ hcrE2h s = true)) ∧
      (s.pstateEl = .el3 → i.name = .esrEl1 → reachOf i s = .reg1) ∧
      (s.pstateEl = .el2 ∨ s.pstateEl = .el3 → i.name = .esrEl12 →
        (reachOf i s = .reg1 ↔ el2Enabled s = true ∧ hcrE2h s = true) ∧
        (reachOf i s = .undef ↔ ¬(el2Enabled s = true ∧ hcrE2h s = true))) ∧
      (s.pstateEl = .el2 ∨ s.pstateEl = .el3 → i.name = .esrEl2 → reachOf i s = .reg2) ∧
      (reachOf i s = .mem ∨ reachOf i s = .trap → s.pstateEl = .el1 ∧ el2Enabled s = true) ∧
      (s.params.haveEl2 = false → i.name = .esrEl1 → s.pstateEl = .el1 ∨ s.pstateEl = .el3 → reachOf i s = .reg1) ∧
      (s.params.haveEl2 = false → i.name = .esrEl12 → reachOf i s = .undef) ∧
      (s.params.haveNv = false → s.pstateEl = .el1 → i.name = .esrEl12 ∨ i.name = .esrEl2 → reachOf i s = .undef) ∧
      (s.params.haveNv = false → reachOf i s ≠ .mem) ∧ (s.params.haveNv2 = false → reachOf i s ≠ .mem)

/-! ### Ordering (20_memory.md R47 to R49) -/

/-- Away from EL3 with E2H, what a write of ESR_EL1 stores the next read gets, by whatever names reach the register (R29, R49): bits
[31:0] as written, bits [63:32] as written with RES0_HI_WRITABLE and zero without (R19, TV5, TV6). -/
def Obligations.ProgramOrderOutsideTheWindow : Prop :=
  ∀ (i j : Instr) (s : State),
    i.isRead = false → j.isRead = true → reachOf i s = .reg1 → reachOf j s = .reg1 → inWindow s = false →
    ecDefined s.params (ecOf (readX s i.rt)) = true →
      ∃ t u, exec i s = .next t ∧ exec j t = .next u ∧ (j.rt ≠ 31 → Stores s.params (readX s i.rt) (readX u j.rt))

/-- A read and a write by the two names at EL3 with E2H = 1, no synchronization between (R47, R235; PR7). After a write by one name, a
read by the other gets the written value or the one from before, and a second read by that name, in program order with the first, does
not go back; the register holds the written value. A write right after a read by the other name stores its value, and the register the
read filled holds the value from before or the written one, unless the write takes its value from that register: then it is ordered
after the read (log 14). -/
def Obligations.CrossNameReadSeesNewOrOld : Prop :=
  ∀ (n : EsrName) (a b c : BitVec 5) (s : State) (v : Word),
    n ≠ .esrEl2 → s.pstateEl = .el3 → el2Enabled s = true → hcrE2h s = true → s.window = windowClosed → s.esrEl1 = .known v →
    ecDefined s.params (ecOf (readX s a)) = true → b ≠ 31 → c ≠ 31 → b ≠ c →
      (∃ t u u' w, exec (accessor false n a) s = .next t ∧ exec (accessor true (otherName n) b) t = .next u ∧
        exec (accessor true (otherName n) c) u = .next u' ∧ u'.esrEl1 = .known w ∧ Stores s.params (readX s a) w ∧
        (readX u' b = v ∨ readX u' b = w) ∧ (readX u' c = v ∨ readX u' c = w) ∧ (readX u' b = w → readX u' c = w)) ∧
      (a ≠ b → ∃ t u w, exec (accessor true (otherName n) b) s = .next t ∧ exec (accessor false n a) t = .next u ∧
        u.esrEl1 = .known w ∧ Stores s.params (readX s a) w ∧ (readX u b = v ∨ readX u b = w) ∧ SameRegistersBut b s u) ∧
      (ecDefined s.params (ecOf v) = true → ∃ t u w, exec (accessor true (otherName n) b) s = .next t ∧
        exec (accessor false n b) t = .next u ∧ u.esrEl1 = .known w ∧ Stores s.params v w ∧ readX u b = v ∧ SameRegistersBut b s u)

/-- The same with a synchronization event between, or by the same name: the read gets the written value (R47, R48; PR7). -/
def Obligations.SynchronizedReadSeesNew : Prop :=
  ∀ (n m : EsrName) (a rt : BitVec 5) (s : State),
    n ≠ .esrEl2 → m ≠ .esrEl2 → s.pstateEl = .el3 → el2Enabled s = true → hcrE2h s = true → s.window = windowClosed →
    ecDefined s.params (ecOf (readX s a)) = true →
      ∃ t w, exec (accessor false n a) s = .next t ∧ t.esrEl1 = .known w ∧ Stores s.params (readX s a) w ∧
        (∃ t' u, applyEvent .contextSync t = .next t' ∧ exec (accessor true m rt) t' = .next u ∧ (rt ≠ 31 → readX u rt = w)) ∧
        (∃ u, exec (accessor true n rt) t = .next u ∧ (rt ≠ 31 → readX u rt = w))

/-- At EL3 with E2H = 1, after two writes by different names with no synchronization between, what one of them stores remains, all 64
bits of it, and nothing else does (R47, R235, R19). A third write by the second name, in program order after the second, never gives
way to it. -/
def Obligations.CrossNameWritesEitherRemains : Prop :=
  ∀ (n : EsrName) (a b c : BitVec 5) (s : State),
    n ≠ .esrEl2 → s.pstateEl = .el3 → el2Enabled s = true → hcrE2h s = true → s.window = windowClosed →
    ecDefined s.params (ecOf (readX s a)) = true → ecDefined s.params (ecOf (readX s b)) = true →
    ecDefined s.params (ecOf (readX s c)) = true →
      ∃ t u u' w w', exec (accessor false n a) s = .next t ∧ exec (accessor false (otherName n) b) t = .next u ∧
        u.esrEl1 = .known w ∧ (Stores s.params (readX s a) w ∨ Stores s.params (readX s b) w) ∧ SameRegisters s u ∧
        u.pc = s.pc + 8 ∧ exec (accessor false (otherName n) c) u = .next u' ∧ u'.esrEl1 = .known w' ∧
        (Stores s.params (readX s a) w' ∨ Stores s.params (readX s c) w') ∧
        (Stores s.params (readX s b) w → ¬Stores s.params (readX s a) w → Stores s.params (readX s c) w')

/-! ### Taking an exception (60_exceptions.md) -/

/-- An exception taken to EL1 writes the whole of ESR_EL1 with its syndrome, zero in [63:32], for some draw of the UNKNOWN subfields,
and enters EL1; no other syndrome register, register or byte changes (R26, R179, R19). That PSTATE.EL and `pc` become EL1 and the
environment's handler is log 12. -/
def Obligations.ExceptionToEl1WritesTheSyndrome : Prop :=
  ∀ (s : State) (r : ExceptionRecord) (rest : List Input),
    s.inputs = .exception r :: rest → recordProblem s.params r = none → recordFits s r = true → r.target = .el1 →
    r.unpredictableAsUndefined = false →
      ∃ t d, step s = .next t ∧ t.esrEl1 = .known ((0 : BitVec 32) ++ syndrome s.params (syndromeInputs s) r d) ∧
        EnteredByEvent .el1 s t ∧ t.esrEl2 = s.esrEl2 ∧ t.esrEl3 = s.esrEl3 ∧ t.inputs = rest

/-- An exception taken to EL2 or EL3 leaves ESR_EL1 unchanged (R179, TV185), UNKNOWN or not. The level and `pc` that the entry leaves
are log 12. -/
def Obligations.ExceptionToHigherLevelLeavesEsrEl1 : Prop :=
  ∀ (s : State) (r : ExceptionRecord) (rest : List Input),
    s.inputs = .exception r :: rest → recordProblem s.params r = none → recordFits s r = true → r.target ≠ .el1 →
      ∃ t, step s = .next t ∧ t.esrEl1 = s.esrEl1 ∧ (r.target = .el2 → t.esrEl3 = s.esrEl3) ∧
        (r.target = .el3 → t.esrEl2 = s.esrEl2) ∧ EnteredByEvent r.target s t ∧ t.inputs = rest

/-- A record that carries a reserved fault status code is refused (R111, R128, V4). The codes that are not reserved are listed: for an
Instruction Abort 20 whatever the features, five parity and ECC codes without the RAS Extension and 0b110001 with ARMv8.1-TTHM (R111);
for a Data Abort four more, the Domain faults not among them (R128). -/
def Obligations.ReservedFaultStatusIsRefused : Prop :=
  ∀ (s : State) (r : ExceptionRecord) (rest : List Input),
    s.inputs = .exception r :: rest →
    r.fsc ∉ [(0x00 : BitVec 6), 0x01, 0x02, 0x03, 0x04, 0x05, 0x06, 0x07, 0x09, 0x0A, 0x0B, 0x0D, 0x0E, 0x0F, 0x10, 0x14, 0x15, 0x16,
      0x17, 0x30] →
    (s.params.haveRas = true ∨ r.fsc ∉ [(0x18 : BitVec 6), 0x1C, 0x1D, 0x1E, 0x1F]) →
    (s.params.haveTthm = false ∨ r.fsc ≠ 0x31) →
    (r.cls = .instAbort ∨ (r.cls = .dataAbort ∧ r.fsc ∉ [(0x11 : BitVec 6), 0x21, 0x34, 0x35])) →
      ∃ q, step s = .refused (.badRecord q)

/-- An UNPREDICTABLE instruction treated as UNDEFINED, taken to EL1, leaves a value that some exception from the same level could have
written (R28). The form of that set is log 15; the level, `pc` and preferred return address that the entry leaves are log 12: both the
model's choice. -/
def Obligations.UnpredictableLeavesAPossibleSyndrome : Prop :=
  ∀ (s : State) (r : ExceptionRecord) (rest : List Input),
    s.inputs = .exception r :: rest → recordProblem s.params r = none → recordFits s r = true → r.target = .el1 →
    r.unpredictableAsUndefined = true →
      ∃ t r' d, step s = .next t ∧ recordProblem s.params r' = none ∧ r'.target = .el1 ∧ r'.fromEl = r.fromEl ∧
        r'.unpredictableAsUndefined = false ∧
        t.esrEl1 = .known ((0 : BitVec 32) ++ syndrome s.params (syndromeInputs s) r' d) ∧ EnteredByEvent .el1 s t

/-- A syndrome is EC, IL and ISS put together, and decomposition is the inverse (R61). -/
def Obligations.SyndromeComposition : Prop :=
  ∀ (p : Params) (g : SyndromeInputs) (r : ExceptionRecord) (d : Word) (ec : BitVec 6),
    ecOfRecord p g r = some ec →
      ecOf ((0 : BitVec 32) ++ syndrome p g r d) = ec ∧ ilOf ((0 : BitVec 32) ++ syndrome p g r d) = ilOfRecord p g r d ∧
        issOf ((0 : BitVec 32) ++ syndrome p g r d) = issOfRecord p g r d ∧ hiOf ((0 : BitVec 32) ++ syndrome p g r d) = 0 ∧
        (syndrome p g r d).toNat = ec.toNat * 2 ^ 26 + (ilOfRecord p g r d).toNat * 2 ^ 25 + (issOfRecord p g r d).toNat

/-- With EC 0b000000 the ISS is zero and IL is 1, so 0x02000000 is the only such syndrome (R24, R66). -/
def Obligations.UnknownReasonSyndromeIsOneValue : Prop :=
  ∀ (p : Params) (g : SyndromeInputs) (r : ExceptionRecord) (d : Word),
    ecOfRecord p g r = some 0b000000 → issOfRecord p g r d = 0 ∧ ilOfRecord p g r d = 1 ∧ syndrome p g r d = 0x02000000

/-- The classes with one value: Illegal Execution state, PC and SP alignment faults, and Breakpoint (with Vector Catch) from a lower
level and from the same (R191, R198, R201, R205, R206). -/
def Obligations.ConstantSyndromes : Prop :=
  ∀ (p : Params) (g : SyndromeInputs) (r : ExceptionRecord) (d : Word), r.target = .el1 →
    (r.cls = .illegalState → layoutOfRecord p g r = .ill ∧ ilOfRecord p g r d = 1 ∧ syndrome p g r d = 0x3A000000) ∧
    (r.cls = .pcAlignment → layoutOfRecord p g r = .ill ∧ ilOfRecord p g r d = 1 ∧ syndrome p g r d = 0x8A000000) ∧
    (r.cls = .spAlignment → layoutOfRecord p g r = .ill ∧ ilOfRecord p g r d = 1 ∧ syndrome p g r d = 0x9A000000) ∧
    (r.cls = .breakpoint ∨ r.cls = .vectorCatch → r.fromEl = .el0 →
      layoutOfRecord p g r = .bkpt ∧ ilOfRecord p g r d = 1 ∧ syndrome p g r d = 0xC2000022) ∧
    (r.cls = .breakpoint → r.fromEl = .el1 →
      layoutOfRecord p g r = .bkpt ∧ ilOfRecord p g r d = 1 ∧ syndrome p g r d = 0xC6000022)

/-- Software Step: the value of R207 and R208, with EX zero unless ISV (R150). -/
def Obligations.SoftwareStepSyndromes : Prop :=
  ∀ (p : Params) (g : SyndromeInputs) (r : ExceptionRecord) (d : Word), r.target = .el1 → r.cls = .softwareStep →
    layoutOfRecord p g r = .sstep ∧ ilOfRecord p g r d = 1 ∧
      (syndrome p g r d).toNat = (if r.fromEl = .el1 then 0xCE000022 else 0xCA000022) +
        (if r.stepIsv then 2 ^ 24 else 0) + (if r.stepIsv && r.steppedLoadExclusive then 2 ^ 6 else 0)

/-- Watchpoint: the value of R209 and R210; CM and WnR by R154 and R155. -/
def Obligations.WatchpointSyndromes : Prop :=
  ∀ (p : Params) (g : SyndromeInputs) (r : ExceptionRecord) (d : Word), r.target = .el1 → r.cls = .watchpoint →
    layoutOfRecord p g r = .wpt ∧ ilOfRecord p g r d = 1 ∧
      (syndrome p g r d).toNat = (if r.fromEl = .el1 then 0xD6000022 else 0xD2000022) +
        (if r.isCmOrAt then 2 ^ 8 else 0) +
        (if r.isCmOrAt then 2 ^ 6 else if r.isAtomic then (if r.readWouldFault then 0 else 2 ^ 6)
          else if r.isWrite then 2 ^ 6 else 0)

/-- SVC, BRK, BKPT and Branch Target: the value is the class's constant with the immediate, the comment or BTYPE in it (R193, R212, R190,
R91, R104, R158). A BKPT is 32 bits long in A32, with a 16-bit immediate; in T32 its immediate has 8 bits, and IL follows its length
(R211); that a T32 BKPT of 32 bits is taken is the model's choice, log 42. -/
def Obligations.CallAndBreakSyndromes : Prop :=
  ∀ (p : Params) (g : SyndromeInputs) (r : ExceptionRecord) (d : Word), recordProblem p r = none →
    (r.cls = .svcA64 → syndrome p g r d = 0x56000000 ||| r.imm16.setWidth 32) ∧
      (r.cls = .brkA64 → syndrome p g r d = 0xF2000000 ||| r.imm.setWidth 32) ∧
      (r.cls = .branchTarget → syndrome p g r d = 0x36000000 ||| r.btype.setWidth 32) ∧
      (r.cls = .bkptA32 → r.iset = .a32 → syndrome p g r d = 0xE2000000 ||| r.imm.setWidth 32) ∧
      (r.cls = .bkptA32 → r.iset = .t32 →
        syndrome p g r d = (if r.instrLen = .bits16 then 0xE0000000 else 0xE2000000) ||| (r.imm.extractLsb' 0 8).setWidth 32)

/-- A32 and T32 SVC: EC 0x11, IL by the instruction's length, and bits [24:16] zero in every case; the low 16 bits of imm24, or imm8
zero-extended; UNKNOWN when conditional, so then bits [15:0] alone are free (R192, R91). That a T32 SVC of 32 bits is taken is the model's
choice, log 42. -/
def Obligations.AArch32SvcSyndromes : Prop :=
  ∀ (p : Params) (g : SyndromeInputs) (r : ExceptionRecord) (d : Word), recordProblem p r = none → r.cls = .svcA32 →
    syndrome p g r d >>> 16 = (if r.instrLen = .bits16 then 0x4400 else 0x4600) ∧
      (r.iset = .a32 → r.conditional = false → syndrome p g r d = 0x46000000 ||| (r.imm24.extractLsb' 0 16).setWidth 32) ∧
      (r.iset = .t32 → r.conditional = false →
        syndrome p g r d = (if r.instrLen = .bits16 then 0x44000000 else 0x46000000) ||| r.imm8.setWidth 32)

/-- Every Data Abort that ESR_EL1 receives has ISV 0, bits [24:13] zero and IL 1; below them stand SET, FnV, EA, CM, S1PTW, WnR and
DFSC, field by field (R115 to R129, R199, R200). EA is EA_CLASS for the ten codes of an External abort (R109, R124). WnR is free for two
codes and for an External abort of an atomic access, 1 for cache maintenance and address translation, and for an atomic access 0 where a
read would have faulted or ATOMIC_S1PTW_WNR0 relaxes it (R127). -/
def Obligations.DataAbortAtEl1 : Prop :=
  ∀ (p : Params) (g : SyndromeInputs) (r : ExceptionRecord) (d : Word), r.target = .el1 → r.cls = .dataAbort →
    ilOfRecord p g r d = 1 ∧ issField (issOfRecord p g r d) 24 13 = 0 ∧
      ecOfRecord p g r = some (if r.fromEl = .el1 then 0b100101 else 0b100100) ∧
      issField (issOfRecord p g r d) 12 11 = (if p.haveRas = true ∧ r.fsc = 0b010000 then r.set else 0) ∧
      issField (issOfRecord p g r d) 10 10 = (if r.fsc = 0b010000 then BitVec.ofBool r.farNotValid else 0) ∧
      issField (issOfRecord p g r d) 9 9 =
        (if r.fsc ∈ [(0x10 : BitVec 6), 0x14, 0x15, 0x16, 0x17, 0x18, 0x1C, 0x1D, 0x1E, 0x1F] then Config.eaClass r else 0) ∧
      issField (issOfRecord p g r d) 8 8 = BitVec.ofBool r.isCmOrAt ∧
      issField (issOfRecord p g r d) 7 7 = (if r.stage2 = true then BitVec.ofBool r.s1ptw else 0) ∧
      issField (issOfRecord p g r d) 5 0 = r.fsc ∧
      (r.fsc ≠ 0b110101 → r.fsc ≠ 0b110001 →
        (r.isAtomic = false ∨ r.fsc ∉ [(0x10 : BitVec 6), 0x14, 0x15, 0x16, 0x17, 0x18, 0x1C, 0x1D, 0x1E, 0x1F]) →
        issField (issOfRecord p g r d) 6 6 =
          (if r.isCmOrAt = true then 1
            else if r.isAtomic = true then
              if (r.stage2 = true ∧ r.s1ptw = true ∧ p.atomicS1ptwWnr0 = true) ∨ r.readWouldFault = true then 0 else 1
            else if r.isWrite = true then 1 else 0))

/-- Instruction Abort: the value of R196 and R197, subfield by subfield (R106 to R111). EA is EA_CLASS for the ten codes of an External
abort and 0 for any other (R109). -/
def Obligations.InstructionAbortFields : Prop :=
  ∀ (p : Params) (g : SyndromeInputs) (r : ExceptionRecord) (d : Word), r.target = .el1 → r.cls = .instAbort →
    ilOfRecord p g r d = 1 ∧ ecOfRecord p g r = some (if r.fromEl = .el1 then 0b100001 else 0b100000) ∧
      issField (issOfRecord p g r d) 24 13 = 0 ∧ issField (issOfRecord p g r d) 8 8 = 0 ∧ issField (issOfRecord p g r d) 6 6 = 0 ∧
      issField (issOfRecord p g r d) 5 0 = r.fsc ∧
      issField (issOfRecord p g r d) 12 11 = (if p.haveRas = true ∧ r.fsc = 0b010000 then r.set else 0) ∧
      issField (issOfRecord p g r d) 10 10 = (if r.fsc = 0b010000 then BitVec.ofBool r.farNotValid else 0) ∧
      issField (issOfRecord p g r d) 7 7 = BitVec.ofBool (r.stage2 && r.s1ptw) ∧
      issField (issOfRecord p g r d) 9 9 =
        (if r.fsc ∈ [(0x10 : BitVec 6), 0x14, 0x15, 0x16, 0x17, 0x18, 0x1C, 0x1D, 0x1E, 0x1F] then Config.eaClass r else 0)

/-- Trapped accesses, each subfield where its layout puts it: MSR, MRS or System instruction, Op2 above Op1 and Rt between CRn and CRm
(R97, R98, R194); MCR or MRC, with the fixed values of a VMRS (R71 to R73); MCRR or MRRC, read only for coproc 0b1110 (R76 to R78, R189);
LDC or STC, Rn free in the literal form (R79 to R84). Register numbers are the AArch64 view (R23), given so by the record (R178) or
mapped (log 17). -/
def Obligations.SystemTrapFields : Prop :=
  ∀ (p : Params) (g : SyndromeInputs) (r : ExceptionRecord) (d : Word), recordProblem p r = none →
    (r.cls = .sysTrap → ecOfRecord p g r = some 0b011000 ∧
      issField (issOfRecord p g r d) 24 22 = 0 ∧ issField (issOfRecord p g r d) 21 20 = r.op0 ∧
      issField (issOfRecord p g r d) 19 17 = r.op2 ∧ issField (issOfRecord p g r d) 16 14 = r.op1 ∧
      issField (issOfRecord p g r d) 13 10 = r.crn ∧ (∃ t, r.rt = .view t ∧ issField (issOfRecord p g r d) 9 5 = t) ∧
      issField (issOfRecord p g r d) 4 1 = r.crm ∧ issField (issOfRecord p g r d) 0 0 = BitVec.ofBool r.isRead) ∧
    (r.cls = .mcrCp15 ∨ r.cls = .mcrCp14 →
      issField (issOfRecord p g r d) 19 17 = (if r.isVmrs = true then 0b000 else r.opc2) ∧
      issField (issOfRecord p g r d) 16 14 = (if r.isVmrs = true then 0b111 else r.opc1.extractLsb' 0 3) ∧
      issField (issOfRecord p g r d) 13 10 = r.crn ∧ ReportsRegister r r.rt (issField (issOfRecord p g r d) 9 5) ∧
      issField (issOfRecord p g r d) 4 1 = (if r.isVmrs = true then 0b0000 else r.crm) ∧
      issField (issOfRecord p g r d) 0 0 = (if r.isVmrs = true then 1 else BitVec.ofBool r.isRead)) ∧
    (r.cls = .mcrrCp15 ∨ r.cls = .mrrcCp14 →
      issField (issOfRecord p g r d) 19 16 = r.opc1 ∧ issField (issOfRecord p g r d) 15 15 = 0 ∧
      ReportsRegister r r.rt2 (issField (issOfRecord p g r d) 14 10) ∧ ReportsRegister r r.rt (issField (issOfRecord p g r d) 9 5) ∧
      issField (issOfRecord p g r d) 4 1 = r.crm ∧
      issField (issOfRecord p g r d) 0 0 = (if r.cls = .mrrcCp14 then 1 else BitVec.ofBool r.isRead)) ∧
    (r.cls = .ldcStc →
      issField (issOfRecord p g r d) 19 12 = r.imm8 ∧ issField (issOfRecord p g r d) 11 10 = 0 ∧
      (r.literal = false → ReportsRegister r r.rn (issField (issOfRecord p g r d) 9 5)) ∧
      issField (issOfRecord p g r d) 4 4 = BitVec.ofBool r.add ∧ issField (issOfRecord p g r d) 3 3 = BitVec.ofBool r.literal ∧
      issField (issOfRecord p g r d) 2 2 = BitVec.ofBool r.p ∧ issField (issOfRecord p g r d) 1 1 = BitVec.ofBool r.w ∧
      issField (issOfRecord p g r d) 0 0 = BitVec.ofBool r.isLoad)

/-- CV and COND in the layouts that have them: 1 and 0b1110 from AArch64; from A32, 1 and 0b1110 or the instruction's condition; from
T32, without T32_CV, CV is 0 and COND UNKNOWN, with it 1 and the condition that applied, or 0b1110 where it is known to pass and
COND_PASS_AS_AL says so (R64, R65). TI of WFX is 1 for a WFE (R69). -/
def Obligations.ConditionSubfields : Prop :=
  ∀ (p : Params) (g : SyndromeInputs) (r : ExceptionRecord) (d : Word),
    layoutOfRecord p g r ∈ [IssLayout.wfx, .mcr, .mcrr, .ldc, .fpAcc] →
      (r.fromState = .aarch64 → issField (issOfRecord p g r d) 24 24 = 1 ∧ issField (issOfRecord p g r d) 23 20 = 0b1110) ∧
      (r.fromState = .aarch32 → r.iset = .a32 → issField (issOfRecord p g r d) 24 24 = 1 ∧
        issField (issOfRecord p g r d) 23 20 =
          (if r.conditional = true ∧ ¬(r.knownPass = true ∧ p.condPassAsAl = true) then r.cond else 0b1110)) ∧
      (r.fromState = .aarch32 → r.iset = .t32 → p.t32Cv = false → issField (issOfRecord p g r d) 24 24 = 0) ∧
      (r.fromState = .aarch32 → r.iset = .t32 → p.t32Cv = true → issField (issOfRecord p g r d) 24 24 = 1 ∧
        issField (issOfRecord p g r d) 23 20 = (if r.knownPass = true ∧ p.condPassAsAl = true then 0b1110 else r.cond)) ∧
      (r.cls = .wfx → issField (issOfRecord p g r d) 0 0 = BitVec.ofBool r.isWfe)

/-- SError: an IMPLEMENTATION DEFINED syndrome is IDS 1 and the 24 bits of IDS_SYNDROME; without it and without the RAS Extension the ISS
is zero; with it AET and IESB, and EA_CLASS for an External abort, are reported with DFSC 0b010001 alone (R138 to R143, R204). -/
def Obligations.SErrorFields : Prop :=
  ∀ (p : Params) (g : SyndromeInputs) (r : ExceptionRecord) (d : Word), r.cls = .sError →
    ecOfRecord p g r = some 0b101111 ∧ ilOfRecord p g r d = 1 ∧
      (r.serrImpdef = true → issField (issOfRecord p g r d) 24 24 = 1 ∧
        issField (issOfRecord p g r d) 23 0 = Config.idsSyndrome r) ∧
      (r.serrImpdef = false → p.haveRas = false → issOfRecord p g r d = 0) ∧
      (r.serrImpdef = false → p.haveRas = true →
        issField (issOfRecord p g r d) 24 14 = 0 ∧ issField (issOfRecord p g r d) 5 0 = r.serrDfsc ∧
        issField (issOfRecord p g r d) 8 6 = 0 ∧
        issField (issOfRecord p g r d) 9 9 = (if r.serrDfsc = 0b010001 ∧ r.isExternal = true then Config.eaClass r else 0) ∧
        issField (issOfRecord p g r d) 12 10 = (if r.serrDfsc = 0b010001 then r.aet else 0) ∧
        issField (issOfRecord p g r d) 13 13 =
          (if p.haveIesb = true ∧ r.serrDfsc = 0b010001 then BitVec.ofBool r.iesb else 0))

/-- Trapped floating-point exceptions: TFV, the six bits when TFV is 1, VECITR 0b111 from AArch32 (R132 to R135). -/
def Obligations.FloatingPointFields : Prop :=
  ∀ (p : Params) (g : SyndromeInputs) (r : ExceptionRecord) (d : Word), r.cls = .fpExcA32 ∨ r.cls = .fpExcA64 →
    issField (issOfRecord p g r d) 23 23 = BitVec.ofBool (!(r.isVector && p.tfvZeroOnVector)) ∧
      issField (issOfRecord p g r d) 24 24 = 0 ∧ issField (issOfRecord p g r d) 22 11 = 0 ∧
      issField (issOfRecord p g r d) 6 5 = 0 ∧
      (r.fromState = .aarch32 → issField (issOfRecord p g r d) 10 8 = 0b111) ∧
      (¬(r.isVector = true ∧ p.tfvZeroOnVector = true) →
        issField (issOfRecord p g r d) 7 7 = BitVec.ofBool r.fpTrapped.inputDenormal ∧
        issField (issOfRecord p g r d) 4 0 = BitVec.ofBool r.fpTrapped.inexact ++ BitVec.ofBool r.fpTrapped.underflow ++
          BitVec.ofBool r.fpTrapped.overflow ++ BitVec.ofBool r.fpTrapped.divideByZero ++
          BitVec.ofBool r.fpTrapped.invalidOperation)

/-- IL is 0 in ESR_EL1 only for ten EC values, for a 16-bit T32 instruction at EL0 (R215, R60). -/
def Obligations.IlZeroOnlyForT32 : Prop :=
  ∀ (p : Params) (g : SyndromeInputs) (r : ExceptionRecord) (d : Word),
    recordProblem p r = none → r.target = .el1 → ilOfRecord p g r d = 0 →
      r.instrLen = .bits16 ∧ r.iset = .t32 ∧ r.fromState = .aarch32 ∧ r.fromEl = .el0 ∧
        ∃ ec, ecOfRecord p g r = some ec ∧ ec ∈ [(0x01 : BitVec 6), 0x03, 0x04, 0x05, 0x06, 0x07, 0x0C, 0x11, 0x28, 0x38]

/-- The EC value of every record the model takes selects the layout its ISS is built with, so a reader of the register decodes what
hardware encoded (R62), and the value is not reserved (R213). Each class has its own value (R182 to R212), in a pair by the levels
(R180(b)), so classes that share a layout are told apart; an access to SVE or floating-point has EC 0 where R86, R88 and R188 say so. -/
def Obligations.EcSelectsTheLayout : Prop :=
  ∀ (p : Params) (g : SyndromeInputs) (r : ExceptionRecord) (ec : BitVec 6),
    recordProblem p r = none → ecOfRecord p g r = some ec →
      layoutOfEc p ec = some (layoutOfRecord p g r) ∧ ecDefined p ec = true ∧
      ec = match r.cls with
        | .unknownReason => 0x00
        | .wfx => 0x01
        | .mcrCp15 => 0x03
        | .mcrrCp15 => 0x04
        | .mcrCp14 => 0x05
        | .ldcStc => 0x06
        | .fpAccess =>
          if (p.haveFp = false ∧ p.haveSve = false) ∨ (g.tge = true ∧ r.fpControl = .cpacrFpen) then 0x00 else 0x07
        | .mrrcCp14 => 0x0C
        | .branchTarget => 0x0D
        | .illegalState => 0x0E
        | .svcA32 => 0x11
        | .svcA64 => 0x15
        | .sysTrap => 0x18
        | .sveAccess => if p.haveSve = true then 0x19 else 0x00
        | .instAbort => if r.fromEl = r.target then 0x21 else 0x20
        | .pcAlignment => 0x22
        | .dataAbort => if r.fromEl = r.target then 0x25 else 0x24
        | .spAlignment => 0x26
        | .fpExcA32 => 0x28
        | .fpExcA64 => 0x2C
        | .sError => 0x2F
        | .breakpoint | .vectorCatch => if r.fromEl = r.target then 0x31 else 0x30
        | .softwareStep => if r.fromEl = r.target then 0x33 else 0x32
        | .watchpoint => if r.fromEl = r.target then 0x35 else 0x34
        | .bkptA32 => 0x38
        | .brkA64 => 0x3C
        | .hvc | .smcA32 | .smcA64 | .impDefEl3 | .eretTrap | .pacTrap => ec

/-- The always reserved EC values are the 33 of R213, and the conditional ones follow their features. -/
def Obligations.ReservedEcValues : Prop :=
  ∀ (p : Params) (ec : BitVec 6),
    (ec ∈ [(0x02 : BitVec 6), 0x08, 0x09, 0x0A, 0x0B, 0x0F, 0x10, 0x12, 0x13, 0x14, 0x16, 0x17, 0x1A, 0x1B, 0x1C, 0x1D, 0x1E, 0x1F,
        0x23, 0x27, 0x29, 0x2A, 0x2B, 0x2D, 0x2E, 0x36, 0x37, 0x39, 0x3A, 0x3B, 0x3D, 0x3E, 0x3F] ∨
      (ec = 0x0D ∧ p.haveBti = false) ∨ (ec = 0x19 ∧ p.haveSve = false) ∨
      ((ec = 0x28 ∨ ec = 0x2C) ∧ p.haveFpTraps = false)) ↔ ecDefined p ec = false

/-- The fields of every layout cover the 25 bits, each once, and those of the register the 64 (R18, R22, R66 to R157). -/
def Obligations.FieldsCoverEveryBit : Prop :=
  tiles 64 esrFields = true ∧ ∀ (p : Params) (l : IssLayout), tiles 25 (issFields p l) = true

/-- Hardware writes zero in every RES0 subfield of the layout, for every record and every draw, but for an IMPLEMENTATION DEFINED
SError syndrome, which has no subfields (R22, V2, R139). -/
def Obligations.HardwareWritesRes0AsZero : Prop :=
  ∀ (p : Params) (g : SyndromeInputs) (r : ExceptionRecord) (d : Word),
    r.cls ≠ .sError ∨ r.serrImpdef = false →
      res0RowsZero (issFields p (layoutOfRecord p g r)) (issOfRecord p g r d) = true

/-! ### The other events -/

/-- An exception return from EL1 makes ESR_EL1 UNKNOWN; from any other level it leaves it (R27, R217; TV181, TV182). Registers, memory
and the other syndrome registers are unchanged; level and `pc` are the environment's, log 33. -/
def Obligations.ExceptionReturnMakesUnknown : Prop :=
  ∀ (s : State) (l : ExceptionLevel) (a : Word) (rest : List Input),
    s.inputs = .exceptionReturn l a :: rest →
      ∃ t, step s = .next t ∧ (s.pstateEl = .el1 → t.esrEl1 = .unknown) ∧ (s.pstateEl ≠ .el1 → t.esrEl1 = s.esrEl1) ∧
        t.pstateEl = l ∧ t.pc = a ∧ SameRegisters s t ∧ SameMemory s t ∧ t.esrEl2 = s.esrEl2 ∧ t.esrEl3 = s.esrEl3 ∧
        t.preferredReturn = s.preferredReturn ∧ t.params = s.params ∧ t.env = s.env ∧ t.inputs = rest

/-- An IRQ or FIQ taken to an implemented level, not below the present one, and not from EL0 to EL1 under HCR_EL2.TGE (R180(d)), leaves
every syndrome register (R220, TV183). The level and `pc` that the entry leaves are the model's choice, logs 12 and 21. -/
def Obligations.InterruptLeavesEsrEl1 : Prop :=
  ∀ (s : State) (l : ExceptionLevel) (rest : List Input),
    s.inputs = .interrupt l :: rest → l ≠ .el0 → s.pstateEl.rank ≤ l.rank → (l = .el2 → s.params.haveEl2 = true) →
    (l = .el3 → s.params.haveEl3 = true) → ¬(s.pstateEl = .el0 ∧ l = .el1 ∧ hcrTge s = true) →
      ∃ t, step s = .next t ∧ t.esrEl1 = s.esrEl1 ∧ t.esrEl2 = s.esrEl2 ∧ t.esrEl3 = s.esrEl3 ∧ EnteredByEvent l s t

/-- A write of DFSR, where AArch32 is implemented and the EC bits it writes are defined, writes ESR_EL1[31:0] and leaves [63:32] (R32,
D23). The premise is `Res0Inv`'s for the register, whose content is known. That the write is an event, at any level, which moves neither
`pc` nor the level, is the model's choice, log 20. -/
def Obligations.DfsrWriteWritesTheLowHalf : Prop :=
  ∀ (s : State) (v : BitVec 32) (u : Word) (rest : List Input),
    s.inputs = .dfsrWrite v :: rest → s.params.haveAarch32 = true → s.esrEl1 = .known u → contentRes0 s.params s.esrEl1 →
    ecDefined s.params (v.extractLsb' 26 6) = true →
      ∃ t w, step s = .next t ∧ t.esrEl1 = .known w ∧ loOf w = v ∧ hiOf w = hiOf u ∧ t.dfsr = some v ∧ SameRegisters s t ∧
        SameMemory s t ∧ t.pc = s.pc ∧ t.pstateEl = s.pstateEl ∧ t.esrEl2 = s.esrEl2 ∧ t.esrEl3 = s.esrEl3 ∧
        t.preferredReturn = s.preferredReturn ∧ t.params = s.params ∧ t.env = s.env ∧ t.inputs = rest

/-- A reset makes ESR_EL1 UNKNOWN, whatever else the environment supplies (R31, R228, TV180); and it is UNKNOWN in the state right
after reset. -/
def Obligations.ResetMakesEsrEl1Unknown : Prop :=
  State.reset.esrEl1 = .unknown ∧
    ∀ (s : State) (r : ResetInputs) (rest : List Input),
      s.inputs = .reset r :: rest →
        ∃ t, step s = .next t ∧ t.esrEl1 = .unknown ∧ t.params = s.params ∧ t.pc = r.pc ∧ t.pstateEl = r.pstateEl ∧ t.x = r.x ∧
          t.esrEl2 = r.esrEl2 ∧ t.env = r.env

/-! ### Invariants -/

/-- Every step keeps the memory behind NVMem in its canonical form (R40; log 7). -/
def Obligations.StepKeepsMemoryInv : Prop :=
  ∀ s t : State, MemoryInv s → step s = .next t → MemoryInv t

/-- Every step keeps bits [63:32] of ESR_EL1 zero unless RES0_HI_WRITABLE, in the register and in the unordered window (R19, R29,
R179). -/
def Obligations.StepKeepsRes0Inv : Prop :=
  ∀ s t : State, Res0Inv s → step s = .next t → Res0Inv t

/-- Every step keeps reserved EC values out of ESR_EL1 unless software may store them: hardware never writes one (R213). -/
def Obligations.StepKeepsReservedEcInv : Prop :=
  ∀ s t : State, ReservedEcInv s → step s = .next t → ReservedEcInv t

/-- The three invariants hold right after reset. -/
def Obligations.ResetMeetsTheInvariants : Prop :=
  MemoryInv State.reset ∧ Res0Inv State.reset ∧ ReservedEcInv State.reset

/-- No step changes the parameters of the implementation (R8, R9, D15), and only the environment changes its inputs (R33, R228). -/
def Obligations.StepKeepsTheParameters : Prop :=
  ∀ s t : State, step s = .next t →
    t.params = s.params ∧
      ((∀ e rest, s.inputs ≠ .environment e :: rest) → (∀ r rest, s.inputs ≠ .reset r :: rest) → t.env = s.env)

/-- Only four agents change ESR_EL1 (R25). A step that changes it is one of these: an exception taken to EL1, which is a delivered
record, an UNDEFINED accessor or a misaligned `pc`; an exception return from EL1; a write by software (MSR or DFSR); a reset. That an
entry sets `pc` to the environment's handler is the model's choice, log 12. -/
def Obligations.OnlyFourAgentsChangeEsrEl1 : Prop :=
  ∀ s t : State, step s = .next t → t.esrEl1 ≠ s.esrEl1 →
    (t.pstateEl = .el1 ∧ t.pc = s.env.handlerEl1 ∧ (∃ v, t.esrEl1 = .known v ∧ hiOf v = 0) ∧
      ((∃ r rest, s.inputs = .exception r :: rest ∧ r.target = .el1) ∨
        (∃ w rest i, s.inputs = .execute w :: rest ∧ s.pc.toNat % 4 = 0 ∧ decode w = .ok i ∧ reachOf i s = .undef ∧
          syncTarget s = .el1) ∨
        (∃ w rest, s.inputs = .execute w :: rest ∧ s.pc.toNat % 4 ≠ 0 ∧ syncTarget s = .el1))) ∨
    (s.pstateEl = .el1 ∧ t.esrEl1 = .unknown ∧ ∃ l a rest, s.inputs = .exceptionReturn l a :: rest) ∨
    (s.pstateEl ≠ .el0 ∧ ∃ w rest i, s.inputs = .execute w :: rest ∧ decode w = .ok i ∧ i.isRead = false ∧
      reachOf i s = .reg1) ∨
    (s.params.haveAarch32 = true ∧ ∃ v rest, s.inputs = .dfsrWrite v :: rest) ∨
    (t.esrEl1 = .unknown ∧ ∃ r rest, s.inputs = .reset r :: rest)

/-- Each accessor does what the decision table of R176 says: the pseudocode of R170 to R175 and the table agree, name by name. -/
def Obligations.AccessorsFollowTheDecisionTable : Prop :=
  ∀ (i : Instr) (s : State),
    exec i s =
      match reachOf i s, i.isRead with
      | .reg1, true => .next (readEsrEl1 i.name i.rt s)
      | .reg1, false => writeEsrEl1 i.name i.rt s
      | .reg2, true => .next (readEsrEl2 i.rt s)
      | .reg2, false => .next (writeEsrEl2 i.rt s)
      | .mem, true => readNvMem i.rt s
      | .mem, false => writeNvMem i.rt s
      | .trap, b => .next (systemAccessTrap i.name b i.rt s)
      | .undef, _ => .next (undefinedAccess s)

/-- Every accessor, MRS and MSR by each of the three names, has a next state at every level, in the EL3 window too (R160, R163 to
R165), unless the spec itself stops the model: a reserved EC value under `refuse` (R213), an invalid NV_BASE (R42), a fault on the
NVMem access in its own direction (R44, which has its own statement), or a write at EL3 that could take effect before a read by the
other name whose value something has used (R47: the model refuses the step, log 14). That last write is refused wherever it would
write the register, whether by storing its value or, for a reserved EC, by CU_RESERVED_EC. -/
def Obligations.AccessorsProceed : Prop :=
  ∀ (i : Instr) (s : State),
    ((i.isRead = false → reachOf i s = .reg1 → s.params.cuReservedEc = .refuse → ecDefined s.params (ecOf (readX s i.rt)) = true) →
      (reachOf i s = .mem → s.params.nvBase.toNat % 8 = 0 ∧ s.params.nvBase.toNat ≤ 2 ^ 64 - 0x140 ∧
        (if i.isRead then s.env.nvReadFault else s.env.nvWriteFault) = none) →
      (i.isRead = false → reachOf i s = .reg1 → overtakesUse i.name i.rt s = false) →
        ∃ t, exec i s = .next t) ∧
      (i.isRead = false → reachOf i s = .reg1 →
        ecDefined s.params (ecOf (readX s i.rt)) = true ∨ s.params.cuReservedEc ≠ .refuse →
        overtakesUse i.name i.rt s = true → exec i s = .refused .unordered)
end

