-- ==== Sys2Proof/Laws/Memory.lean ====
section
/-! SUPPORT. The laws of the byte memory: every operation keeps the canonical form, a read after a write, and the 8-byte cell. -/

namespace Sys2Proof.Machine

/-- Every listed address is above `a`. -/
def Memory.above (a : Nat) (m : Memory) : Prop := ∀ c ∈ m, a < c.1

/-- The canonical form, entry by entry: the first entry is in range, not the unlisted byte, and below all that follow. -/
theorem Memory.wf_cons (c : Host.Cell) (m : Memory) :
    Memory.wf (c :: m) = true ↔ c.1 < 2 ^ 64 ∧ c.2 ≠ unlistedByte ∧ Memory.above c.1 m ∧ Memory.wf m = true := by
  induction m generalizing c with
  | nil => simp [Memory.wf, Memory.above]
  | cons d rest ih =>
    have hd := ih d
    constructor
    · intro h
      have h1 : c.1 < 2 ^ 64 ∧ c.2 ≠ unlistedByte ∧ c.1 < d.1 ∧ Memory.wf (d :: rest) = true := by
        rw [Memory.wf] at h; simpa [and_assoc] using h
      refine ⟨h1.1, h1.2.1, ?_, h1.2.2.2⟩
      intro e he
      rcases List.mem_cons.mp he with rfl | he
      · exact h1.2.2.1
      · exact lt_trans h1.2.2.1 ((hd.mp h1.2.2.2).2.2.1 e he)
    · rintro ⟨h1, h2, h3, h4⟩
      rw [Memory.wf]
      have h5 := h3 d (by simp)
      have h1' : c.1 < 18446744073709551616 := h1
      simp [h1', h2, h5, h4]

/-- The bytes `consByte` lists are in the byte it puts in front or in the memory behind. -/
theorem Memory.mem_consByte {a : Nat} {b : Byte} {m : Memory} {c : Host.Cell} (h : c ∈ Memory.consByte a b m) :
    c = (a, b) ∨ c ∈ m := by
  unfold Memory.consByte at h
  split at h
  · exact .inr h
  · exact List.mem_cons.mp h

/-- A byte in front of higher ones keeps the canonical form. -/
theorem Memory.wf_consByte {a : Nat} {b : Byte} {m : Memory} (ha : a < 2 ^ 64) (hab : Memory.above a m)
    (hm : Memory.wf m = true) : Memory.wf (Memory.consByte a b m) = true := by
  unfold Memory.consByte
  split
  · exact hm
  · next hb => exact (Memory.wf_cons _ _).mpr ⟨ha, hb, hab, hm⟩

/-- What a write lists was listed, or is the byte written. -/
theorem Memory.mem_write {m : Memory} {a : Nat} {b : Byte} {c : Host.Cell} (h : c ∈ Memory.write m a b) :
    c = (a, b) ∨ c ∈ m := by
  induction m with
  | nil => exact Memory.mem_consByte h
  | cons d rest ih =>
    rw [Memory.write] at h
    split at h
    · exact Memory.mem_consByte h
    · split at h
      · exact (Memory.mem_consByte h).imp id (List.mem_cons_of_mem _)
      · rcases List.mem_cons.mp h with rfl | h
        · exact .inr (List.mem_cons_self ..)
        · exact (ih h).imp id (List.mem_cons_of_mem _)

/-- A write keeps the canonical form. -/
theorem Memory.wf_write {m : Memory} {a : Nat} {b : Byte} (ha : a < 2 ^ 64) (hm : Memory.wf m = true) :
    Memory.wf (Memory.write m a b) = true := by
  induction m with
  | nil => exact Memory.wf_consByte ha (by simp [Memory.above]) rfl
  | cons d rest ih =>
    have hd := (Memory.wf_cons d rest).mp hm
    rw [Memory.write]
    split
    · next h =>
      refine Memory.wf_consByte ha (fun c hc => ?_) hm
      rcases List.mem_cons.mp hc with rfl | hc
      · exact h
      · exact lt_trans h (hd.2.2.1 c hc)
    · next h =>
      split
      · next he => exact Memory.wf_consByte ha (he ▸ hd.2.2.1) hd.2.2.2
      · next he =>
        refine (Memory.wf_cons _ _).mpr ⟨hd.1, hd.2.1, fun c hc => ?_, ih hd.2.2.2⟩
        rcases Memory.mem_write hc with rfl | hc
        · show d.1 < a
          omega
        · exact hd.2.2.1 c hc

/-- Writing bytes one after the other keeps the canonical form. -/
theorem Memory.wf_writeAll {m : Memory} (hm : Memory.wf m = true) (bs : List (Word × Byte)) :
    Memory.wf (Memory.writeAll m bs) = true := by
  induction bs generalizing m with
  | nil => exact hm
  | cons c rest ih => exact ih (Memory.wf_write c.1.isLt hm)

/-- A memory whose addresses are all above `a` reads the unlisted byte there. -/
theorem Memory.read_of_above {m : Memory} {a : Nat} (h : Memory.above a m) : Memory.read m a = unlistedByte := by
  induction m with
  | nil => rfl
  | cons c rest ih =>
    have h1 := h c (by simp)
    have h2 : c.1 ≠ a := by omega
    rw [Memory.read, if_neg h2]
    exact ih fun e he => h e (List.mem_cons_of_mem _ he)

/-- A read of the byte put in front. -/
theorem Memory.read_consByte_same {a : Nat} {b : Byte} {m : Memory} (h : Memory.above a m) :
    Memory.read (Memory.consByte a b m) a = b := by
  unfold Memory.consByte
  split
  · next hb => rw [Memory.read_of_above h, hb]
  · simp [Memory.read]

/-- A read elsewhere passes the byte put in front. -/
theorem Memory.read_consByte_other {a a' : Nat} {b : Byte} {m : Memory} (h : a' ≠ a) :
    Memory.read (Memory.consByte a b m) a' = Memory.read m a' := by
  unfold Memory.consByte
  split
  · rfl
  · rw [Memory.read, if_neg (Ne.symm h)]

/-- A byte reads back as written. -/
theorem Memory.read_write_same {m : Memory} (hm : Memory.wf m = true) (a : Nat) (b : Byte) :
    Memory.read (Memory.write m a b) a = b := by
  induction m with
  | nil => exact Memory.read_consByte_same (by simp [Memory.above])
  | cons d rest ih =>
    have hd := (Memory.wf_cons d rest).mp hm
    rw [Memory.write]
    split
    · next h =>
      refine Memory.read_consByte_same fun c hc => ?_
      rcases List.mem_cons.mp hc with rfl | hc
      · exact h
      · exact lt_trans h (hd.2.2.1 c hc)
    · split
      · next he => exact Memory.read_consByte_same (he ▸ hd.2.2.1)
      · next he =>
        rw [Memory.read, if_neg (Ne.symm he)]
        exact ih hd.2.2.2

/-- A write leaves every other byte. -/
theorem Memory.read_write_other {m : Memory} {a a' : Nat} (b : Byte) (h : a' ≠ a) :
    Memory.read (Memory.write m a b) a' = Memory.read m a' := by
  induction m with
  | nil => exact Memory.read_consByte_other h
  | cons d rest ih =>
    rw [Memory.write]
    split
    · exact Memory.read_consByte_other h
    · split
      · next he =>
        rw [Memory.read_consByte_other h, Memory.read, if_neg (by omega)]
      · rw [Memory.read, Memory.read, ih]

/-- The cell write as eight byte writes. -/
theorem Memory.write64_eq (be : Bool) (m : Memory) (a : Nat) (v : Word) :
    Memory.write64 be m a v =
      Memory.write (Memory.write (Memory.write (Memory.write (Memory.write (Memory.write (Memory.write (Memory.write m
        (a + 0) (byteAt be v 0)) (a + 1) (byteAt be v 1)) (a + 2) (byteAt be v 2)) (a + 3) (byteAt be v 3))
        (a + 4) (byteAt be v 4)) (a + 5) (byteAt be v 5)) (a + 6) (byteAt be v 6)) (a + 7) (byteAt be v 7) := rfl

/-- The cell write keeps the canonical form. -/
theorem Memory.wf_write64 {be : Bool} {m : Memory} {a : Nat} {v : Word} (ha : a + 8 ≤ 2 ^ 64) (hm : Memory.wf m = true) :
    Memory.wf (Memory.write64 be m a v) = true := by
  rw [Memory.write64_eq]
  have h8 : a + 7 < 2 ^ 64 := by omega
  exact Memory.wf_write (by omega) (Memory.wf_write (by omega) (Memory.wf_write (by omega) (Memory.wf_write (by omega)
    (Memory.wf_write (by omega) (Memory.wf_write (by omega) (Memory.wf_write (by omega) (Memory.wf_write (by omega) hm)))))))

/-- The cell write leaves every byte outside its eight. -/
theorem Memory.read_write64_other (be : Bool) (m : Memory) (a : Nat) (v : Word) {a' : Nat} (h : a' < a ∨ a + 8 ≤ a') :
    Memory.read (Memory.write64 be m a v) a' = Memory.read m a' := by
  rw [Memory.write64_eq]
  iterate 8 rw [Memory.read_write_other _ (by omega)]

/-- The cell write puts byte `i` of the value, in its byte order, at offset `i` (R41). -/
theorem Memory.read_write64_byte {be : Bool} {m : Memory} {a : Nat} {v : Word} (ha : a + 8 ≤ 2 ^ 64) (hm : Memory.wf m = true)
    {i : Nat} (hi : i < 8) : Memory.read (Memory.write64 be m a v) (a + i) = byteAt be v i := by
  rw [Memory.write64_eq]
  have w0 := Memory.wf_write (a := a + 0) (b := byteAt be v 0) (by omega) hm
  have w1 := Memory.wf_write (a := a + 1) (b := byteAt be v 1) (by omega) w0
  have w2 := Memory.wf_write (a := a + 2) (b := byteAt be v 2) (by omega) w1
  have w3 := Memory.wf_write (a := a + 3) (b := byteAt be v 3) (by omega) w2
  have w4 := Memory.wf_write (a := a + 4) (b := byteAt be v 4) (by omega) w3
  have w5 := Memory.wf_write (a := a + 5) (b := byteAt be v 5) (by omega) w4
  have w6 := Memory.wf_write (a := a + 6) (b := byteAt be v 6) (by omega) w5
  interval_cases i
  · iterate 7 rw [Memory.read_write_other _ (by omega)]
    exact Memory.read_write_same hm _ _
  · iterate 6 rw [Memory.read_write_other _ (by omega)]
    exact Memory.read_write_same w0 _ _
  · iterate 5 rw [Memory.read_write_other _ (by omega)]
    exact Memory.read_write_same w1 _ _
  · iterate 4 rw [Memory.read_write_other _ (by omega)]
    exact Memory.read_write_same w2 _ _
  · iterate 3 rw [Memory.read_write_other _ (by omega)]
    exact Memory.read_write_same w3 _ _
  · iterate 2 rw [Memory.read_write_other _ (by omega)]
    exact Memory.read_write_same w4 _ _
  · rw [Memory.read_write_other _ (by omega)]
    exact Memory.read_write_same w5 _ _
  · exact Memory.read_write_same w6 _ _

/-- Eight bytes, most significant first, put together again. -/
theorem bytes_concat (v : Word) :
    (v.extractLsb' 56 8 ++ v.extractLsb' 48 8 ++ v.extractLsb' 40 8 ++ v.extractLsb' 32 8 ++ v.extractLsb' 24 8 ++
      v.extractLsb' 16 8 ++ v.extractLsb' 8 8 ++ v.extractLsb' 0 8 : BitVec 64) = v := by
  apply BitVec.eq_of_getElem_eq
  intro i hi
  simp only [BitVec.getElem_append, BitVec.getElem_extractLsb']
  rw [← BitVec.getLsbD_eq_getElem (by omega : i < 64)]
  split_ifs <;> congr 1 <;> omega

/-- A cell reads back what was written to it (R40, R41), in either byte order. -/
theorem Memory.read64_write64 {be : Bool} {m : Memory} {a : Nat} {v : Word} (ha : a + 8 ≤ 2 ^ 64) (hm : Memory.wf m = true) :
    Memory.read64 be (Memory.write64 be m a v) a = v := by
  have hb := fun i (hi : i < 8) => Memory.read_write64_byte (be := be) (v := v) ha hm hi
  cases be
  · simp only [Memory.read64, Bool.false_eq_true, if_false]
    rw [hb 0 (by omega), hb 1 (by omega), hb 2 (by omega), hb 3 (by omega), hb 4 (by omega), hb 5 (by omega), hb 6 (by omega),
      hb 7 (by omega)]
    simpa [byteAt] using bytes_concat v
  · simp only [Memory.read64, if_true]
    rw [hb (7 - 0) (by omega), hb (7 - 1) (by omega), hb (7 - 2) (by omega), hb (7 - 3) (by omega), hb (7 - 4) (by omega),
      hb (7 - 5) (by omega), hb (7 - 6) (by omega), hb (7 - 7) (by omega)]
    simpa [byteAt] using bytes_concat v

/-- The NVMem cell lies in the 64-bit space where the base is valid (R167). -/
theorem nvAddress_room {p : Params} (h : nvBaseValid p = true) : nvAddress p + 8 ≤ 2 ^ 64 := by
  simp [nvBaseValid] at h
  simp only [nvAddress]
  omega

/-- A byte of eight joined bytes. -/
theorem byte_of_concat (b : Nat → Byte) {j : Nat} (hj : j < 8) :
    (b 7 ++ b 6 ++ b 5 ++ b 4 ++ b 3 ++ b 2 ++ b 1 ++ b 0 : BitVec 64).extractLsb' (8 * j) 8 = b j := by
  apply BitVec.eq_of_getLsbD_eq
  intro i hi
  simp only [BitVec.getLsbD_extractLsb', BitVec.getLsbD_append, hi, decide_true, Bool.true_and]
  interval_cases j <;> interval_cases i <;> rfl

/-- Each byte of an 8-byte read is the byte of memory R41 puts there. -/
theorem Memory.read64_byte (be : Bool) (m : Memory) (a : Nat) {k : Nat} (hk : k < 8) :
    (Memory.read64 be m a).extractLsb' (8 * (if be then 7 - k else k)) 8 = Memory.read m (a + k) := by
  cases be
  · exact byte_of_concat (fun i => Memory.read m (a + i)) hk
  · refine (byte_of_concat (fun i => Memory.read m (a + (7 - i))) (show 7 - k < 8 by omega)).trans ?_
    simp only [show 7 - (7 - k) = k by omega]

end Sys2Proof.Machine
end

