-- ==== Sys2Proof/Laws/State.lean ====
section
/-! SUPPORT. One lemma per field per update: what each state-to-state operation does to each field. No later proof unfolds a record
update. -/

namespace Sys2Proof.Machine

/-! ### `writeX`: only the register file changes (R34) -/

@[simp] theorem writeX_params (s : State) (t : BitVec 5) (v : Word) : (writeX s t v).params = s.params := by
  unfold writeX; split <;> rfl
@[simp] theorem writeX_esrEl1 (s : State) (t : BitVec 5) (v : Word) : (writeX s t v).esrEl1 = s.esrEl1 := by
  unfold writeX; split <;> rfl
@[simp] theorem writeX_esrEl2 (s : State) (t : BitVec 5) (v : Word) : (writeX s t v).esrEl2 = s.esrEl2 := by
  unfold writeX; split <;> rfl
@[simp] theorem writeX_esrEl3 (s : State) (t : BitVec 5) (v : Word) : (writeX s t v).esrEl3 = s.esrEl3 := by
  unfold writeX; split <;> rfl
@[simp] theorem writeX_pc (s : State) (t : BitVec 5) (v : Word) : (writeX s t v).pc = s.pc := by
  unfold writeX; split <;> rfl
@[simp] theorem writeX_pstateEl (s : State) (t : BitVec 5) (v : Word) : (writeX s t v).pstateEl = s.pstateEl := by
  unfold writeX; split <;> rfl
@[simp] theorem writeX_preferredReturn (s : State) (t : BitVec 5) (v : Word) : (writeX s t v).preferredReturn = s.preferredReturn := by
  unfold writeX; split <;> rfl
@[simp] theorem writeX_mem (s : State) (t : BitVec 5) (v : Word) : (writeX s t v).mem = s.mem := by
  unfold writeX; split <;> rfl
@[simp] theorem writeX_window (s : State) (t : BitVec 5) (v : Word) : (writeX s t v).window = s.window := by
  unfold writeX; split <;> rfl
@[simp] theorem writeX_env (s : State) (t : BitVec 5) (v : Word) : (writeX s t v).env = s.env := by
  unfold writeX; split <;> rfl
@[simp] theorem writeX_inputs (s : State) (t : BitVec 5) (v : Word) : (writeX s t v).inputs = s.inputs := by
  unfold writeX; split <;> rfl
@[simp] theorem writeX_draws (s : State) (t : BitVec 5) (v : Word) : (writeX s t v).draws = s.draws := by
  unfold writeX; split <;> rfl

/-! ### `complete`: `pc` (R160) -/

@[simp] theorem complete_params (s : State) : (complete s).params = s.params := rfl
@[simp] theorem complete_esrEl1 (s : State) : (complete s).esrEl1 = s.esrEl1 := rfl
@[simp] theorem complete_esrEl2 (s : State) : (complete s).esrEl2 = s.esrEl2 := rfl
@[simp] theorem complete_esrEl3 (s : State) : (complete s).esrEl3 = s.esrEl3 := rfl
@[simp] theorem complete_x (s : State) : (complete s).x = s.x := rfl
@[simp] theorem complete_pc (s : State) : (complete s).pc = s.pc + 4 := rfl
@[simp] theorem complete_pstateEl (s : State) : (complete s).pstateEl = s.pstateEl := rfl
@[simp] theorem complete_preferredReturn (s : State) : (complete s).preferredReturn = s.preferredReturn := rfl
@[simp] theorem complete_mem (s : State) : (complete s).mem = s.mem := rfl
@[simp] theorem complete_window (s : State) : (complete s).window = s.window := rfl
@[simp] theorem complete_env (s : State) : (complete s).env = s.env := rfl
@[simp] theorem complete_inputs (s : State) : (complete s).inputs = s.inputs := rfl
@[simp] theorem complete_draws (s : State) : (complete s).draws = s.draws := rfl

/-! ### `completeRead`: a register, `pc`, and what the window knows of that register (R160) -/

@[simp] theorem completeRead_params (rt : BitVec 5) (v : Word) (s : State) : (completeRead rt v s).params = s.params := by
  simp [completeRead]
@[simp] theorem completeRead_esrEl1 (rt : BitVec 5) (v : Word) (s : State) : (completeRead rt v s).esrEl1 = s.esrEl1 := by
  simp [completeRead]
@[simp] theorem completeRead_esrEl2 (rt : BitVec 5) (v : Word) (s : State) : (completeRead rt v s).esrEl2 = s.esrEl2 := by
  simp [completeRead]
@[simp] theorem completeRead_esrEl3 (rt : BitVec 5) (v : Word) (s : State) : (completeRead rt v s).esrEl3 = s.esrEl3 := by
  simp [completeRead]
@[simp] theorem completeRead_x (rt : BitVec 5) (v : Word) (s : State) : (completeRead rt v s).x = (writeX s rt v).x := rfl
@[simp] theorem completeRead_pc (rt : BitVec 5) (v : Word) (s : State) : (completeRead rt v s).pc = s.pc + 4 := by
  simp [completeRead]
@[simp] theorem completeRead_pstateEl (rt : BitVec 5) (v : Word) (s : State) : (completeRead rt v s).pstateEl = s.pstateEl := by
  simp [completeRead]
@[simp] theorem completeRead_preferredReturn (rt : BitVec 5) (v : Word) (s : State) : (completeRead rt v s).preferredReturn = s.preferredReturn := by
  simp [completeRead]
@[simp] theorem completeRead_mem (rt : BitVec 5) (v : Word) (s : State) : (completeRead rt v s).mem = s.mem := by
  simp [completeRead]
@[simp] theorem completeRead_window (rt : BitVec 5) (v : Word) (s : State) : (completeRead rt v s).window = overwriteRegister rt s.window := rfl
@[simp] theorem completeRead_env (rt : BitVec 5) (v : Word) (s : State) : (completeRead rt v s).env = s.env := by
  simp [completeRead]
@[simp] theorem completeRead_inputs (rt : BitVec 5) (v : Word) (s : State) : (completeRead rt v s).inputs = s.inputs := by
  simp [completeRead]
@[simp] theorem completeRead_draws (rt : BitVec 5) (v : Word) (s : State) : (completeRead rt v s).draws = s.draws := by
  simp [completeRead]

/-! ### `completeWrite`: `pc`, and what the window knows of the source register (R160) -/

@[simp] theorem completeWrite_params (rt : BitVec 5) (s : State) : (completeWrite rt s).params = s.params := rfl
@[simp] theorem completeWrite_esrEl1 (rt : BitVec 5) (s : State) : (completeWrite rt s).esrEl1 = s.esrEl1 := rfl
@[simp] theorem completeWrite_esrEl2 (rt : BitVec 5) (s : State) : (completeWrite rt s).esrEl2 = s.esrEl2 := rfl
@[simp] theorem completeWrite_esrEl3 (rt : BitVec 5) (s : State) : (completeWrite rt s).esrEl3 = s.esrEl3 := rfl
@[simp] theorem completeWrite_x (rt : BitVec 5) (s : State) : (completeWrite rt s).x = s.x := rfl
@[simp] theorem completeWrite_pc (rt : BitVec 5) (s : State) : (completeWrite rt s).pc = s.pc + 4 := rfl
@[simp] theorem completeWrite_pstateEl (rt : BitVec 5) (s : State) : (completeWrite rt s).pstateEl = s.pstateEl := rfl
@[simp] theorem completeWrite_preferredReturn (rt : BitVec 5) (s : State) : (completeWrite rt s).preferredReturn = s.preferredReturn := rfl
@[simp] theorem completeWrite_mem (rt : BitVec 5) (s : State) : (completeWrite rt s).mem = s.mem := rfl
@[simp] theorem completeWrite_window (rt : BitVec 5) (s : State) : (completeWrite rt s).window = useRegister rt s.window := rfl
@[simp] theorem completeWrite_env (rt : BitVec 5) (s : State) : (completeWrite rt s).env = s.env := rfl
@[simp] theorem completeWrite_inputs (rt : BitVec 5) (s : State) : (completeWrite rt s).inputs = s.inputs := rfl
@[simp] theorem completeWrite_draws (rt : BitVec 5) (s : State) : (completeWrite rt s).draws = s.draws := rfl

/-! ### `enterLevel`: level, `pc` and window (R223, R48) -/

@[simp] theorem enterLevel_params (l : ExceptionLevel) (s : State) : (enterLevel l s).params = s.params := rfl
@[simp] theorem enterLevel_esrEl1 (l : ExceptionLevel) (s : State) : (enterLevel l s).esrEl1 = s.esrEl1 := rfl
@[simp] theorem enterLevel_esrEl2 (l : ExceptionLevel) (s : State) : (enterLevel l s).esrEl2 = s.esrEl2 := rfl
@[simp] theorem enterLevel_esrEl3 (l : ExceptionLevel) (s : State) : (enterLevel l s).esrEl3 = s.esrEl3 := rfl
@[simp] theorem enterLevel_x (l : ExceptionLevel) (s : State) : (enterLevel l s).x = s.x := rfl
@[simp] theorem enterLevel_pc (l : ExceptionLevel) (s : State) : (enterLevel l s).pc = handlerOf s l := rfl
@[simp] theorem enterLevel_pstateEl (l : ExceptionLevel) (s : State) : (enterLevel l s).pstateEl = l := rfl
@[simp] theorem enterLevel_preferredReturn (l : ExceptionLevel) (s : State) : (enterLevel l s).preferredReturn = s.preferredReturn := rfl
@[simp] theorem enterLevel_mem (l : ExceptionLevel) (s : State) : (enterLevel l s).mem = s.mem := rfl
@[simp] theorem enterLevel_window (l : ExceptionLevel) (s : State) : (enterLevel l s).window = windowClosed := rfl
@[simp] theorem enterLevel_env (l : ExceptionLevel) (s : State) : (enterLevel l s).env = s.env := rfl
@[simp] theorem enterLevel_inputs (l : ExceptionLevel) (s : State) : (enterLevel l s).inputs = s.inputs := rfl
@[simp] theorem enterLevel_draws (l : ExceptionLevel) (s : State) : (enterLevel l s).draws = s.draws := rfl

/-! ### `recordSyndrome`: the target level's syndrome register (R179) -/

@[simp] theorem recordSyndrome_params (r : ExceptionRecord) (s : State) : (recordSyndrome r s).params = s.params := by
  unfold recordSyndrome; split <;> rfl
@[simp] theorem recordSyndrome_x (r : ExceptionRecord) (s : State) : (recordSyndrome r s).x = s.x := by
  unfold recordSyndrome; split <;> rfl
@[simp] theorem recordSyndrome_pc (r : ExceptionRecord) (s : State) : (recordSyndrome r s).pc = s.pc := by
  unfold recordSyndrome; split <;> rfl
@[simp] theorem recordSyndrome_pstateEl (r : ExceptionRecord) (s : State) : (recordSyndrome r s).pstateEl = s.pstateEl := by
  unfold recordSyndrome; split <;> rfl
@[simp] theorem recordSyndrome_preferredReturn (r : ExceptionRecord) (s : State) : (recordSyndrome r s).preferredReturn = s.preferredReturn := by
  unfold recordSyndrome; split <;> rfl
@[simp] theorem recordSyndrome_mem (r : ExceptionRecord) (s : State) : (recordSyndrome r s).mem = s.mem := by
  unfold recordSyndrome; split <;> rfl
@[simp] theorem recordSyndrome_window (r : ExceptionRecord) (s : State) : (recordSyndrome r s).window = s.window := by
  unfold recordSyndrome; split <;> rfl
@[simp] theorem recordSyndrome_env (r : ExceptionRecord) (s : State) : (recordSyndrome r s).env = s.env := by
  unfold recordSyndrome; split <;> rfl
@[simp] theorem recordSyndrome_inputs (r : ExceptionRecord) (s : State) : (recordSyndrome r s).inputs = s.inputs := by
  unfold recordSyndrome; split <;> rfl

/-! ### `enterException`: the record's write and the entry (R179) -/

@[simp] theorem enterException_params (r : ExceptionRecord) (s : State) : (enterException r s).params = s.params := by
  simp [enterException]
@[simp] theorem enterException_x (r : ExceptionRecord) (s : State) : (enterException r s).x = s.x := by
  simp [enterException]
@[simp] theorem enterException_pstateEl (r : ExceptionRecord) (s : State) : (enterException r s).pstateEl = r.target := by
  simp [enterException]
@[simp] theorem enterException_preferredReturn (r : ExceptionRecord) (s : State) : (enterException r s).preferredReturn = s.preferredReturn := by
  simp [enterException]
@[simp] theorem enterException_mem (r : ExceptionRecord) (s : State) : (enterException r s).mem = s.mem := by
  simp [enterException]
@[simp] theorem enterException_window (r : ExceptionRecord) (s : State) : (enterException r s).window = windowClosed := by
  simp [enterException]
@[simp] theorem enterException_env (r : ExceptionRecord) (s : State) : (enterException r s).env = s.env := by
  simp [enterException]
@[simp] theorem enterException_inputs (r : ExceptionRecord) (s : State) : (enterException r s).inputs = s.inputs := by
  simp [enterException]

/-! ### `raiseHere`: an exception the instruction raises (R163) -/

@[simp] theorem raiseHere_params (r : ExceptionRecord) (s : State) : (raiseHere r s).params = s.params := by
  simp [raiseHere]
@[simp] theorem raiseHere_x (r : ExceptionRecord) (s : State) : (raiseHere r s).x = s.x := by
  simp [raiseHere]
@[simp] theorem raiseHere_pstateEl (r : ExceptionRecord) (s : State) : (raiseHere r s).pstateEl = r.target := by
  simp [raiseHere]
@[simp] theorem raiseHere_preferredReturn (r : ExceptionRecord) (s : State) : (raiseHere r s).preferredReturn = s.pc := by
  simp [raiseHere]
@[simp] theorem raiseHere_mem (r : ExceptionRecord) (s : State) : (raiseHere r s).mem = s.mem := by
  simp [raiseHere]
@[simp] theorem raiseHere_window (r : ExceptionRecord) (s : State) : (raiseHere r s).window = windowClosed := by
  simp [raiseHere]
@[simp] theorem raiseHere_env (r : ExceptionRecord) (s : State) : (raiseHere r s).env = s.env := by
  simp [raiseHere]
@[simp] theorem raiseHere_inputs (r : ExceptionRecord) (s : State) : (raiseHere r s).inputs = s.inputs := by
  simp [raiseHere]

/-! ### `readEsrEl1`: a register from ESR_EL1 (R161) -/

@[simp] theorem readEsrEl1_params (n : EsrName) (rt : BitVec 5) (s : State) : (readEsrEl1 n rt s).params = s.params := by
  simp [readEsrEl1]
@[simp] theorem readEsrEl1_esrEl1 (n : EsrName) (rt : BitVec 5) (s : State) : (readEsrEl1 n rt s).esrEl1 = s.esrEl1 := by
  simp [readEsrEl1]
@[simp] theorem readEsrEl1_esrEl2 (n : EsrName) (rt : BitVec 5) (s : State) : (readEsrEl1 n rt s).esrEl2 = s.esrEl2 := by
  simp [readEsrEl1]
@[simp] theorem readEsrEl1_esrEl3 (n : EsrName) (rt : BitVec 5) (s : State) : (readEsrEl1 n rt s).esrEl3 = s.esrEl3 := by
  simp [readEsrEl1]
@[simp] theorem readEsrEl1_pc (n : EsrName) (rt : BitVec 5) (s : State) : (readEsrEl1 n rt s).pc = s.pc + 4 := by
  simp [readEsrEl1]
@[simp] theorem readEsrEl1_pstateEl (n : EsrName) (rt : BitVec 5) (s : State) : (readEsrEl1 n rt s).pstateEl = s.pstateEl := by
  simp [readEsrEl1]
@[simp] theorem readEsrEl1_preferredReturn (n : EsrName) (rt : BitVec 5) (s : State) : (readEsrEl1 n rt s).preferredReturn = s.preferredReturn := by
  simp [readEsrEl1]
@[simp] theorem readEsrEl1_mem (n : EsrName) (rt : BitVec 5) (s : State) : (readEsrEl1 n rt s).mem = s.mem := by
  simp [readEsrEl1]
@[simp] theorem readEsrEl1_env (n : EsrName) (rt : BitVec 5) (s : State) : (readEsrEl1 n rt s).env = s.env := by
  simp [readEsrEl1]
@[simp] theorem readEsrEl1_inputs (n : EsrName) (rt : BitVec 5) (s : State) : (readEsrEl1 n rt s).inputs = s.inputs := by
  simp [readEsrEl1]
@[simp] theorem readEsrEl1_window (n : EsrName) (rt : BitVec 5) (s : State) : (readEsrEl1 n rt s).window = windowAfterRead n rt s := rfl
@[simp] theorem readEsrEl1_x (n : EsrName) (rt : BitVec 5) (s : State) :
    (readEsrEl1 n rt s).x = (writeX s rt (valueOf s (contentSeen n s))).x := rfl

/-! ### `readEsrEl2`: a register from ESR_EL2 (R161) -/

@[simp] theorem readEsrEl2_params (rt : BitVec 5) (s : State) : (readEsrEl2 rt s).params = s.params := by
  simp [readEsrEl2]
@[simp] theorem readEsrEl2_esrEl1 (rt : BitVec 5) (s : State) : (readEsrEl2 rt s).esrEl1 = s.esrEl1 := by
  simp [readEsrEl2]
@[simp] theorem readEsrEl2_esrEl2 (rt : BitVec 5) (s : State) : (readEsrEl2 rt s).esrEl2 = s.esrEl2 := by
  simp [readEsrEl2]
@[simp] theorem readEsrEl2_esrEl3 (rt : BitVec 5) (s : State) : (readEsrEl2 rt s).esrEl3 = s.esrEl3 := by
  simp [readEsrEl2]
@[simp] theorem readEsrEl2_pc (rt : BitVec 5) (s : State) : (readEsrEl2 rt s).pc = s.pc + 4 := by
  simp [readEsrEl2]
@[simp] theorem readEsrEl2_pstateEl (rt : BitVec 5) (s : State) : (readEsrEl2 rt s).pstateEl = s.pstateEl := by
  simp [readEsrEl2]
@[simp] theorem readEsrEl2_preferredReturn (rt : BitVec 5) (s : State) : (readEsrEl2 rt s).preferredReturn = s.preferredReturn := by
  simp [readEsrEl2]
@[simp] theorem readEsrEl2_mem (rt : BitVec 5) (s : State) : (readEsrEl2 rt s).mem = s.mem := by
  simp [readEsrEl2]
@[simp] theorem readEsrEl2_window (rt : BitVec 5) (s : State) : (readEsrEl2 rt s).window = overwriteRegister rt s.window := by
  simp [readEsrEl2]
@[simp] theorem readEsrEl2_env (rt : BitVec 5) (s : State) : (readEsrEl2 rt s).env = s.env := by
  simp [readEsrEl2]
@[simp] theorem readEsrEl2_inputs (rt : BitVec 5) (s : State) : (readEsrEl2 rt s).inputs = s.inputs := by
  simp [readEsrEl2]
@[simp] theorem readEsrEl2_draws (rt : BitVec 5) (s : State) : (readEsrEl2 rt s).draws = s.draws := by
  simp [readEsrEl2]

/-! ### `writeEsrEl2`: ESR_EL2 from a register (R160) -/

@[simp] theorem writeEsrEl2_params (rt : BitVec 5) (s : State) : (writeEsrEl2 rt s).params = s.params := by
  simp [writeEsrEl2]
@[simp] theorem writeEsrEl2_esrEl1 (rt : BitVec 5) (s : State) : (writeEsrEl2 rt s).esrEl1 = s.esrEl1 := by
  simp [writeEsrEl2]
@[simp] theorem writeEsrEl2_esrEl2 (rt : BitVec 5) (s : State) : (writeEsrEl2 rt s).esrEl2 = readX s rt := by
  simp [writeEsrEl2]
@[simp] theorem writeEsrEl2_esrEl3 (rt : BitVec 5) (s : State) : (writeEsrEl2 rt s).esrEl3 = s.esrEl3 := by
  simp [writeEsrEl2]
@[simp] theorem writeEsrEl2_x (rt : BitVec 5) (s : State) : (writeEsrEl2 rt s).x = s.x := by
  simp [writeEsrEl2]
@[simp] theorem writeEsrEl2_pc (rt : BitVec 5) (s : State) : (writeEsrEl2 rt s).pc = s.pc + 4 := by
  simp [writeEsrEl2]
@[simp] theorem writeEsrEl2_pstateEl (rt : BitVec 5) (s : State) : (writeEsrEl2 rt s).pstateEl = s.pstateEl := by
  simp [writeEsrEl2]
@[simp] theorem writeEsrEl2_preferredReturn (rt : BitVec 5) (s : State) : (writeEsrEl2 rt s).preferredReturn = s.preferredReturn := by
  simp [writeEsrEl2]
@[simp] theorem writeEsrEl2_mem (rt : BitVec 5) (s : State) : (writeEsrEl2 rt s).mem = s.mem := by
  simp [writeEsrEl2]
@[simp] theorem writeEsrEl2_window (rt : BitVec 5) (s : State) : (writeEsrEl2 rt s).window = useRegister rt s.window := by
  simp [writeEsrEl2]
@[simp] theorem writeEsrEl2_env (rt : BitVec 5) (s : State) : (writeEsrEl2 rt s).env = s.env := by
  simp [writeEsrEl2]
@[simp] theorem writeEsrEl2_inputs (rt : BitVec 5) (s : State) : (writeEsrEl2 rt s).inputs = s.inputs := by
  simp [writeEsrEl2]
@[simp] theorem writeEsrEl2_draws (rt : BitVec 5) (s : State) : (writeEsrEl2 rt s).draws = s.draws := by
  simp [writeEsrEl2]

/-! ### `reviseReads`: at most registers and draws (R47) -/

/-- Revising reads changes the register file and the draws, nothing else. -/
theorem reviseReads_frame (c : EsrContent) (l : List WindowAccess) (s : State) :
    ∃ x d, reviseReads c l s = { s with x := x, draws := d } := by
  induction l generalizing s with
  | nil => exact ⟨s.x, s.draws, rfl⟩
  | cons a rest ih =>
    cases a with
    | write n c => exact ⟨s.x, s.draws, rfl⟩
    | read n rt holds used =>
      cases holds with
      | false => exact ih s
      | true =>
        obtain ⟨x, d, h⟩ := ih { writeX s rt (valueOf s c) with draws := s.draws + 1 }
        exact ⟨x, d, by rw [reviseReads, if_pos rfl, h]; simp⟩

@[simp] theorem reviseReads_params (c : EsrContent) (l : List WindowAccess) (s : State) :
    (reviseReads c l s).params = s.params := by
  obtain ⟨x, d, h⟩ := reviseReads_frame c l s; rw [h]
@[simp] theorem reviseReads_esrEl1 (c : EsrContent) (l : List WindowAccess) (s : State) :
    (reviseReads c l s).esrEl1 = s.esrEl1 := by
  obtain ⟨x, d, h⟩ := reviseReads_frame c l s; rw [h]
@[simp] theorem reviseReads_esrEl2 (c : EsrContent) (l : List WindowAccess) (s : State) :
    (reviseReads c l s).esrEl2 = s.esrEl2 := by
  obtain ⟨x, d, h⟩ := reviseReads_frame c l s; rw [h]
@[simp] theorem reviseReads_esrEl3 (c : EsrContent) (l : List WindowAccess) (s : State) :
    (reviseReads c l s).esrEl3 = s.esrEl3 := by
  obtain ⟨x, d, h⟩ := reviseReads_frame c l s; rw [h]
@[simp] theorem reviseReads_pc (c : EsrContent) (l : List WindowAccess) (s : State) :
    (reviseReads c l s).pc = s.pc := by
  obtain ⟨x, d, h⟩ := reviseReads_frame c l s; rw [h]
@[simp] theorem reviseReads_pstateEl (c : EsrContent) (l : List WindowAccess) (s : State) :
    (reviseReads c l s).pstateEl = s.pstateEl := by
  obtain ⟨x, d, h⟩ := reviseReads_frame c l s; rw [h]
@[simp] theorem reviseReads_preferredReturn (c : EsrContent) (l : List WindowAccess) (s : State) :
    (reviseReads c l s).preferredReturn = s.preferredReturn := by
  obtain ⟨x, d, h⟩ := reviseReads_frame c l s; rw [h]
@[simp] theorem reviseReads_mem (c : EsrContent) (l : List WindowAccess) (s : State) :
    (reviseReads c l s).mem = s.mem := by
  obtain ⟨x, d, h⟩ := reviseReads_frame c l s; rw [h]
@[simp] theorem reviseReads_window (c : EsrContent) (l : List WindowAccess) (s : State) :
    (reviseReads c l s).window = s.window := by
  obtain ⟨x, d, h⟩ := reviseReads_frame c l s; rw [h]
@[simp] theorem reviseReads_env (c : EsrContent) (l : List WindowAccess) (s : State) :
    (reviseReads c l s).env = s.env := by
  obtain ⟨x, d, h⟩ := reviseReads_frame c l s; rw [h]
@[simp] theorem reviseReads_inputs (c : EsrContent) (l : List WindowAccess) (s : State) :
    (reviseReads c l s).inputs = s.inputs := by
  obtain ⟨x, d, h⟩ := reviseReads_frame c l s; rw [h]

/-! ### `storeEsrEl1`: the register, the window and the reads the write took effect before (R47, R162) -/

@[simp] theorem storeEsrEl1_params (n : EsrName) (rt : BitVec 5) (c : EsrContent) (s : State) :
    (storeEsrEl1 n rt c s).params = s.params := by
  simp [storeEsrEl1]
@[simp] theorem storeEsrEl1_esrEl2 (n : EsrName) (rt : BitVec 5) (c : EsrContent) (s : State) :
    (storeEsrEl1 n rt c s).esrEl2 = s.esrEl2 := by
  simp [storeEsrEl1]
@[simp] theorem storeEsrEl1_esrEl3 (n : EsrName) (rt : BitVec 5) (c : EsrContent) (s : State) :
    (storeEsrEl1 n rt c s).esrEl3 = s.esrEl3 := by
  simp [storeEsrEl1]
@[simp] theorem storeEsrEl1_pc (n : EsrName) (rt : BitVec 5) (c : EsrContent) (s : State) :
    (storeEsrEl1 n rt c s).pc = s.pc := by
  simp [storeEsrEl1]
@[simp] theorem storeEsrEl1_pstateEl (n : EsrName) (rt : BitVec 5) (c : EsrContent) (s : State) :
    (storeEsrEl1 n rt c s).pstateEl = s.pstateEl := by
  simp [storeEsrEl1]
@[simp] theorem storeEsrEl1_preferredReturn (n : EsrName) (rt : BitVec 5) (c : EsrContent) (s : State) :
    (storeEsrEl1 n rt c s).preferredReturn = s.preferredReturn := by
  simp [storeEsrEl1]
@[simp] theorem storeEsrEl1_mem (n : EsrName) (rt : BitVec 5) (c : EsrContent) (s : State) :
    (storeEsrEl1 n rt c s).mem = s.mem := by
  simp [storeEsrEl1]
@[simp] theorem storeEsrEl1_env (n : EsrName) (rt : BitVec 5) (c : EsrContent) (s : State) :
    (storeEsrEl1 n rt c s).env = s.env := by
  simp [storeEsrEl1]
@[simp] theorem storeEsrEl1_inputs (n : EsrName) (rt : BitVec 5) (c : EsrContent) (s : State) :
    (storeEsrEl1 n rt c s).inputs = s.inputs := by
  simp [storeEsrEl1]
@[simp] theorem storeEsrEl1_esrEl1 (n : EsrName) (rt : BitVec 5) (c : EsrContent) (s : State) :
    (storeEsrEl1 n rt c s).esrEl1 = newestContent c (s.window.order.take (overtaken n (some rt) s)) := rfl
@[simp] theorem storeEsrEl1_window (n : EsrName) (rt : BitVec 5) (c : EsrContent) (s : State) :
    (storeEsrEl1 n rt c s).window = windowAfterWrite n rt c s := rfl
@[simp] theorem storeEsrEl1_x (n : EsrName) (rt : BitVec 5) (c : EsrContent) (s : State) :
    (storeEsrEl1 n rt c s).x = (reviseReads c (s.window.order.take (overtaken n (some rt) s)).reverse s).x := rfl

/-! ### `exceptionReturn`: what the environment restores (R27, R217) -/

@[simp] theorem exceptionReturn_params (l : ExceptionLevel) (a : Word) (s : State) : (exceptionReturn l a s).params = s.params := rfl
@[simp] theorem exceptionReturn_esrEl1 (l : ExceptionLevel) (a : Word) (s : State) : (exceptionReturn l a s).esrEl1 = if s.pstateEl = .el1 then .unknown else s.esrEl1 := rfl
@[simp] theorem exceptionReturn_esrEl2 (l : ExceptionLevel) (a : Word) (s : State) : (exceptionReturn l a s).esrEl2 = s.esrEl2 := rfl
@[simp] theorem exceptionReturn_esrEl3 (l : ExceptionLevel) (a : Word) (s : State) : (exceptionReturn l a s).esrEl3 = s.esrEl3 := rfl
@[simp] theorem exceptionReturn_x (l : ExceptionLevel) (a : Word) (s : State) : (exceptionReturn l a s).x = s.x := rfl
@[simp] theorem exceptionReturn_pc (l : ExceptionLevel) (a : Word) (s : State) : (exceptionReturn l a s).pc = a := rfl
@[simp] theorem exceptionReturn_pstateEl (l : ExceptionLevel) (a : Word) (s : State) : (exceptionReturn l a s).pstateEl = l := rfl
@[simp] theorem exceptionReturn_preferredReturn (l : ExceptionLevel) (a : Word) (s : State) : (exceptionReturn l a s).preferredReturn = s.preferredReturn := rfl
@[simp] theorem exceptionReturn_mem (l : ExceptionLevel) (a : Word) (s : State) : (exceptionReturn l a s).mem = s.mem := rfl
@[simp] theorem exceptionReturn_window (l : ExceptionLevel) (a : Word) (s : State) : (exceptionReturn l a s).window = windowClosed := rfl
@[simp] theorem exceptionReturn_env (l : ExceptionLevel) (a : Word) (s : State) : (exceptionReturn l a s).env = s.env := rfl
@[simp] theorem exceptionReturn_inputs (l : ExceptionLevel) (a : Word) (s : State) : (exceptionReturn l a s).inputs = s.inputs := rfl
@[simp] theorem exceptionReturn_draws (l : ExceptionLevel) (a : Word) (s : State) : (exceptionReturn l a s).draws = s.draws := rfl

/-! ### `writeRegisters` and `applyOther`: an instruction outside the spec (R25) -/

/-- Writing registers changes the register file, nothing else. -/
theorem writeRegisters_frame (l : List (BitVec 5 × Word)) (s : State) : ∃ x, writeRegisters l s = { s with x := x } := by
  induction l generalizing s with
  | nil => exact ⟨s.x, rfl⟩
  | cons m rest ih =>
    obtain ⟨x, h⟩ := ih (writeX s m.1 m.2)
    exact ⟨x, by rw [writeRegisters, h]; simp⟩

@[simp] theorem writeRegisters_params (l : List (BitVec 5 × Word)) (s : State) : (writeRegisters l s).params = s.params := by
  obtain ⟨x, h⟩ := writeRegisters_frame l s; rw [h]
@[simp] theorem writeRegisters_esrEl1 (l : List (BitVec 5 × Word)) (s : State) : (writeRegisters l s).esrEl1 = s.esrEl1 := by
  obtain ⟨x, h⟩ := writeRegisters_frame l s; rw [h]
@[simp] theorem writeRegisters_esrEl2 (l : List (BitVec 5 × Word)) (s : State) : (writeRegisters l s).esrEl2 = s.esrEl2 := by
  obtain ⟨x, h⟩ := writeRegisters_frame l s; rw [h]
@[simp] theorem writeRegisters_esrEl3 (l : List (BitVec 5 × Word)) (s : State) : (writeRegisters l s).esrEl3 = s.esrEl3 := by
  obtain ⟨x, h⟩ := writeRegisters_frame l s; rw [h]
@[simp] theorem writeRegisters_pc (l : List (BitVec 5 × Word)) (s : State) : (writeRegisters l s).pc = s.pc := by
  obtain ⟨x, h⟩ := writeRegisters_frame l s; rw [h]
@[simp] theorem writeRegisters_pstateEl (l : List (BitVec 5 × Word)) (s : State) : (writeRegisters l s).pstateEl = s.pstateEl := by
  obtain ⟨x, h⟩ := writeRegisters_frame l s; rw [h]
@[simp] theorem writeRegisters_preferredReturn (l : List (BitVec 5 × Word)) (s : State) : (writeRegisters l s).preferredReturn = s.preferredReturn := by
  obtain ⟨x, h⟩ := writeRegisters_frame l s; rw [h]
@[simp] theorem writeRegisters_mem (l : List (BitVec 5 × Word)) (s : State) : (writeRegisters l s).mem = s.mem := by
  obtain ⟨x, h⟩ := writeRegisters_frame l s; rw [h]
@[simp] theorem writeRegisters_window (l : List (BitVec 5 × Word)) (s : State) : (writeRegisters l s).window = s.window := by
  obtain ⟨x, h⟩ := writeRegisters_frame l s; rw [h]
@[simp] theorem writeRegisters_env (l : List (BitVec 5 × Word)) (s : State) : (writeRegisters l s).env = s.env := by
  obtain ⟨x, h⟩ := writeRegisters_frame l s; rw [h]
@[simp] theorem writeRegisters_inputs (l : List (BitVec 5 × Word)) (s : State) : (writeRegisters l s).inputs = s.inputs := by
  obtain ⟨x, h⟩ := writeRegisters_frame l s; rw [h]
@[simp] theorem writeRegisters_draws (l : List (BitVec 5 × Word)) (s : State) : (writeRegisters l s).draws = s.draws := by
  obtain ⟨x, h⟩ := writeRegisters_frame l s; rw [h]

@[simp] theorem applyOther_params (e : OtherEffect) (s : State) : (applyOther e s).params = s.params := by
  simp [applyOther]
@[simp] theorem applyOther_esrEl1 (e : OtherEffect) (s : State) : (applyOther e s).esrEl1 = s.esrEl1 := by
  simp [applyOther]
@[simp] theorem applyOther_esrEl2 (e : OtherEffect) (s : State) : (applyOther e s).esrEl2 = s.esrEl2 := by
  simp [applyOther]
@[simp] theorem applyOther_esrEl3 (e : OtherEffect) (s : State) : (applyOther e s).esrEl3 = s.esrEl3 := by
  simp [applyOther]
@[simp] theorem applyOther_x (e : OtherEffect) (s : State) : (applyOther e s).x = (writeRegisters e.writes s).x := rfl
@[simp] theorem applyOther_pc (e : OtherEffect) (s : State) : (applyOther e s).pc = e.pc := rfl
@[simp] theorem applyOther_pstateEl (e : OtherEffect) (s : State) : (applyOther e s).pstateEl = s.pstateEl := by
  simp [applyOther]
@[simp] theorem applyOther_preferredReturn (e : OtherEffect) (s : State) : (applyOther e s).preferredReturn = s.preferredReturn := by
  simp [applyOther]
@[simp] theorem applyOther_mem (e : OtherEffect) (s : State) : (applyOther e s).mem = Memory.writeAll s.mem e.stores := rfl
@[simp] theorem applyOther_window (e : OtherEffect) (s : State) : (applyOther e s).window = 
      e.writes.foldl (fun w m => overwriteRegister m.1 w) (e.reads.foldl (fun w t => useRegister t w) s.window) := rfl
@[simp] theorem applyOther_env (e : OtherEffect) (s : State) : (applyOther e s).env = s.env := by
  simp [applyOther]
@[simp] theorem applyOther_inputs (e : OtherEffect) (s : State) : (applyOther e s).inputs = s.inputs := by
  simp [applyOther]
@[simp] theorem applyOther_draws (e : OtherEffect) (s : State) : (applyOther e s).draws = s.draws := by
  simp [applyOther]

/-! ### `setEnvironment`: the environment's inputs (R236) -/

@[simp] theorem setEnvironment_params (e : Env) (s : State) : (setEnvironment e s).params = s.params := rfl
@[simp] theorem setEnvironment_esrEl1 (e : Env) (s : State) : (setEnvironment e s).esrEl1 = s.esrEl1 := rfl
@[simp] theorem setEnvironment_esrEl2 (e : Env) (s : State) : (setEnvironment e s).esrEl2 = s.esrEl2 := rfl
@[simp] theorem setEnvironment_esrEl3 (e : Env) (s : State) : (setEnvironment e s).esrEl3 = s.esrEl3 := rfl
@[simp] theorem setEnvironment_x (e : Env) (s : State) : (setEnvironment e s).x = s.x := rfl
@[simp] theorem setEnvironment_pc (e : Env) (s : State) : (setEnvironment e s).pc = s.pc := rfl
@[simp] theorem setEnvironment_pstateEl (e : Env) (s : State) : (setEnvironment e s).pstateEl = s.pstateEl := rfl
@[simp] theorem setEnvironment_preferredReturn (e : Env) (s : State) : (setEnvironment e s).preferredReturn = s.preferredReturn := rfl
@[simp] theorem setEnvironment_mem (e : Env) (s : State) : (setEnvironment e s).mem = s.mem := rfl
@[simp] theorem setEnvironment_window (e : Env) (s : State) : (setEnvironment e s).window = s.window := rfl
@[simp] theorem setEnvironment_env (e : Env) (s : State) : (setEnvironment e s).env = e := rfl
@[simp] theorem setEnvironment_inputs (e : Env) (s : State) : (setEnvironment e s).inputs = s.inputs := rfl
@[simp] theorem setEnvironment_draws (e : Env) (s : State) : (setEnvironment e s).draws = s.draws := rfl

/-! ### `applyReset`: everything but parameters and what comes next (R228) -/

@[simp] theorem applyReset_params (r : ResetInputs) (s : State) : (applyReset r s).params = s.params := rfl
@[simp] theorem applyReset_esrEl1 (r : ResetInputs) (s : State) : (applyReset r s).esrEl1 = .unknown := rfl
@[simp] theorem applyReset_esrEl2 (r : ResetInputs) (s : State) : (applyReset r s).esrEl2 = r.esrEl2 := rfl
@[simp] theorem applyReset_esrEl3 (r : ResetInputs) (s : State) : (applyReset r s).esrEl3 = r.esrEl3 := rfl
@[simp] theorem applyReset_x (r : ResetInputs) (s : State) : (applyReset r s).x = r.x := rfl
@[simp] theorem applyReset_pc (r : ResetInputs) (s : State) : (applyReset r s).pc = r.pc := rfl
@[simp] theorem applyReset_pstateEl (r : ResetInputs) (s : State) : (applyReset r s).pstateEl = r.pstateEl := rfl
@[simp] theorem applyReset_preferredReturn (r : ResetInputs) (s : State) : (applyReset r s).preferredReturn = r.preferredReturn := rfl
@[simp] theorem applyReset_mem (r : ResetInputs) (s : State) : (applyReset r s).mem = Memory.writeAll [] r.bytes := rfl
@[simp] theorem applyReset_window (r : ResetInputs) (s : State) : (applyReset r s).window = windowClosed := rfl
@[simp] theorem applyReset_env (r : ResetInputs) (s : State) : (applyReset r s).env = r.env := rfl
@[simp] theorem applyReset_inputs (r : ResetInputs) (s : State) : (applyReset r s).inputs = s.inputs := rfl
@[simp] theorem applyReset_draws (r : ResetInputs) (s : State) : (applyReset r s).draws = s.draws := rfl

/-! ### `contextSync`: the window (R48) -/

@[simp] theorem contextSync_params (s : State) : (contextSync s).params = s.params := rfl
@[simp] theorem contextSync_esrEl1 (s : State) : (contextSync s).esrEl1 = s.esrEl1 := rfl
@[simp] theorem contextSync_esrEl2 (s : State) : (contextSync s).esrEl2 = s.esrEl2 := rfl
@[simp] theorem contextSync_esrEl3 (s : State) : (contextSync s).esrEl3 = s.esrEl3 := rfl
@[simp] theorem contextSync_x (s : State) : (contextSync s).x = s.x := rfl
@[simp] theorem contextSync_pc (s : State) : (contextSync s).pc = s.pc := rfl
@[simp] theorem contextSync_pstateEl (s : State) : (contextSync s).pstateEl = s.pstateEl := rfl
@[simp] theorem contextSync_preferredReturn (s : State) : (contextSync s).preferredReturn = s.preferredReturn := rfl
@[simp] theorem contextSync_mem (s : State) : (contextSync s).mem = s.mem := rfl
@[simp] theorem contextSync_window (s : State) : (contextSync s).window = windowClosed := rfl
@[simp] theorem contextSync_env (s : State) : (contextSync s).env = s.env := rfl
@[simp] theorem contextSync_inputs (s : State) : (contextSync s).inputs = s.inputs := rfl
@[simp] theorem contextSync_draws (s : State) : (contextSync s).draws = s.draws := rfl

/-! ### Registers -/

/-- A register reads back what was written, number 31 reads zero (R34). -/
@[simp] theorem readX_writeX_same (s : State) (t : BitVec 5) (v : Word) :
    readX (writeX s t v) t = if t.toNat < 31 then v else 0 := by
  by_cases h : t.toNat < 31 <;> simp [readX, writeX, h]

/-- Writing one register leaves every other (R34). -/
theorem readX_writeX_other (s : State) (t r : BitVec 5) (v : Word) (h : r ≠ t) :
    readX (writeX s t v) r = readX s r := by
  have hne : t.toNat ≠ r.toNat := fun e => h (BitVec.eq_of_toNat_eq e.symm)
  by_cases ht : t.toNat < 31 <;> by_cases hr : r.toNat < 31 <;> simp [readX, writeX, ht, hr, hne]

/-- What a register reads depends on the register file alone. -/
theorem readX_congr {s s' : State} (h : s'.x = s.x) (r : BitVec 5) : readX s' r = readX s r := by
  simp [readX, h]

/-- Completing leaves what registers read. -/
@[simp] theorem readX_complete (s : State) (r : BitVec 5) : readX (complete s) r = readX s r := rfl

/-- A completed MRS leaves every other register. -/
theorem readX_completeRead_other (s : State) (t r : BitVec 5) (v : Word) (h : r ≠ t) : readX (completeRead t v s) r = readX s r :=
  (readX_congr (completeRead_x t v s) r).trans (readX_writeX_other s t r v h)

/-- A completed MRS fills its register. -/
@[simp] theorem readX_completeRead_same (s : State) (t : BitVec 5) (v : Word) :
    readX (completeRead t v s) t = if t.toNat < 31 then v else 0 :=
  (readX_congr (completeRead_x t v s) t).trans (readX_writeX_same s t v)

/-- A completed MSR leaves what registers read. -/
@[simp] theorem readX_completeWrite (s : State) (t r : BitVec 5) : readX (completeWrite t s) r = readX s r := rfl

/-- Register number 31 reads zero (R34). -/
@[simp] theorem readX_31 (s : State) : readX s 31 = 0 := rfl

/-- Writing register number 31 does nothing (R34). -/
@[simp] theorem writeX_31 (s : State) (v : Word) : writeX s 31 v = s := rfl

end Sys2Proof.Machine
end

