-- ==== Sys2Proof/Laws/Ops.lean ====
section
/-! SUPPORT. For each shared operation one lemma that says everything it can do, and the inversions of `exec` and `step`. Provers cite
these instead of unfolding. -/

namespace Sys2Proof.Machine

/-! ### Words -/

@[simp] theorem loOf_append (a b : BitVec 32) : loOf (a ++ b) = b := by
  apply BitVec.eq_of_getLsbD_eq
  intro i hi
  simp only [loOf, BitVec.getLsbD_extractLsb', BitVec.getLsbD_append, Nat.zero_add, hi, decide_true, Bool.true_and, if_true]

@[simp] theorem hiOf_append (a b : BitVec 32) : hiOf (a ++ b) = a := by
  apply BitVec.eq_of_getLsbD_eq
  intro i hi
  simp only [hiOf, BitVec.getLsbD_extractLsb', BitVec.getLsbD_append, hi, decide_true, Bool.true_and,
    show ¬(32 + i < 32) by omega, if_false, Nat.add_sub_cancel_left]

/-- A value is its two halves. -/
theorem word_halves (v : Word) : hiOf v ++ loOf v = v := by
  apply BitVec.eq_of_getLsbD_eq
  intro i hi
  rw [BitVec.getLsbD_append]
  simp only [hiOf, loOf, BitVec.getLsbD_extractLsb']
  split_ifs with h
  · simp [h]
  · simp only [show i - 32 < 32 by omega, show 32 + (i - 32) = i by omega, decide_true, Bool.true_and]

/-- EC is a field of the low half. -/
theorem ecOf_eq_loOf (v : Word) : ecOf v = (loOf v).extractLsb' 26 6 := by
  apply BitVec.eq_of_getElem_eq
  intro i hi
  simp [ecOf, loOf]

/-! ### The bits ESR_EL1 stores (R19) -/

@[simp] theorem loOf_storedBits (p : Params) (v : Word) : loOf (storedBits p v) = loOf v := by
  unfold storedBits; split <;> simp

theorem hiOf_storedBits (p : Params) (v : Word) : hiOf (storedBits p v) = if p.res0HiWritable then hiOf v else 0 := by
  unfold storedBits; split <;> simp

@[simp] theorem ecOf_storedBits (p : Params) (v : Word) : ecOf (storedBits p v) = ecOf v := by
  rw [ecOf_eq_loOf, loOf_storedBits, ← ecOf_eq_loOf]

theorem storedBits_writable {p : Params} (h : p.res0HiWritable = true) (v : Word) : storedBits p v = v := by
  simp [storedBits, h]

/-- What a software write of `v` can give the register (R162, R213). -/
theorem contentWritten_cases {p : Params} {v : Word} {c : EsrContent} (h : contentWritten p v = some c) :
    (c = .known (storedBits p v) ∧ (ecDefined p (ecOf v) = true ∨ p.cuReservedEc = .store)) ∨
      (c = .unknown ∧ ecDefined p (ecOf v) = false ∧ p.cuReservedEc = .unknown) := by
  unfold contentWritten at h
  split at h
  · next hd => exact .inl ⟨(Option.some.inj h).symm, .inl hd⟩
  · next hd =>
    split at h
    · exact absurd h (by simp)
    · next hc => exact .inl ⟨(Option.some.inj h).symm, .inr hc⟩
    · next hc => exact .inr ⟨(Option.some.inj h).symm, by simpa using hd, hc⟩

theorem contentWritten_defined {p : Params} {v : Word} (h : ecDefined p (ecOf v) = true) :
    contentWritten p v = some (.known (storedBits p v)) := by
  simp [contentWritten, h]

/-- A software write is refused exactly for a reserved EC under `refuse` (R213). -/
theorem contentWritten_eq_none {p : Params} {v : Word} :
    contentWritten p v = none ↔ ecDefined p (ecOf v) = false ∧ p.cuReservedEc = .refuse := by
  unfold contentWritten
  cases hd : ecDefined p (ecOf v) <;> cases hc : p.cuReservedEc <;> simp

/-! ### The EL3 window (R47) -/

/-- Only EL3 with E2H has the window. -/
theorem inWindow_of_ne_el3 {s : State} (h : s.pstateEl ≠ .el3) : inWindow s = false := by
  simp [inWindow, h]

theorem readRaces_of_not_inWindow {n : EsrName} {s : State} (h : inWindow s = false) : readRaces n s = false := by
  simp [readRaces, h]

theorem writeRaces_of_not_inWindow {n : EsrName} {rt : BitVec 5} {s : State} (h : inWindow s = false) :
    writeRaces n rt s = false := by
  simp [writeRaces, h]

/-- Nothing is unordered against a closed window. -/
theorem overtakable_windowClosed (n : EsrName) (source : Option (BitVec 5)) : overtakable n source windowClosed = [] := rfl

/-- An access takes effect before no more accesses than it may. -/
theorem overtaken_le (n : EsrName) (source : Option (BitVec 5)) (s : State) :
    overtaken n source s ≤ (overtakable n source s.window).length := by
  unfold overtaken
  split
  · exact Nat.lt_succ_iff.mp (Nat.mod_lt _ (Nat.succ_pos _))
  · exact Nat.zero_le _

/-- The accesses that one takes effect before are among those it may. -/
theorem take_overtaken (n : EsrName) (source : Option (BitVec 5)) (s : State) :
    s.window.order.take (overtaken n source s) = (overtakable n source s.window).take (overtaken n source s) := by
  have hp : overtakable n source s.window <+: s.window.order := List.takeWhile_prefix _
  obtain ⟨rest, h⟩ := hp
  rw [← h, List.take_append_of_le_length (overtaken_le n source s)]

/-- None of them is by its own name: the accesses by one name take effect in program order (R47, R49, R235). -/
theorem otherName_of_overtaken {n : EsrName} {source : Option (BitVec 5)} {s : State} {a : WindowAccess}
    (h : a ∈ s.window.order.take (overtaken n source s)) : a.byName ≠ n := by
  rw [take_overtaken] at h
  have := List.mem_takeWhile_imp (List.mem_of_mem_take h)
  simp only [Bool.and_eq_true, decide_eq_true_eq] at this
  exact this.1

/-- A write that races nothing takes effect last. -/
theorem overtaken_of_not_writeRaces {n : EsrName} {rt : BitVec 5} {s : State} (h : writeRaces n rt s = false) :
    overtaken n (some rt) s = 0 := by
  rw [writeRaces] at h
  simp [overtaken, h]

/-- A write that races nothing is never refused for a use. -/
theorem overtakesUse_of_not_writeRaces {n : EsrName} {rt : BitVec 5} {s : State} (h : writeRaces n rt s = false) :
    overtakesUse n rt s = false := by
  unfold overtakesUse
  cases hw : inWindow s
  · rfl
  · have : overtakable n (some rt) s.window = [] := by simpa [writeRaces, hw] using h
    simp [this]

theorem not_overtakesUse_of_not_inWindow {n : EsrName} {rt : BitVec 5} {s : State} (h : inWindow s = false) :
    overtakesUse n rt s = false := by
  simp [overtakesUse, h]

/-- The newest content over a list is the base or one that the list wrote. -/
theorem newestContent_cases (base : EsrContent) (l : List WindowAccess) :
    newestContent base l = base ∨ ∃ n, WindowAccess.write n (newestContent base l) ∈ l := by
  induction l with
  | nil => exact .inl rfl
  | cons a rest ih =>
    cases a with
    | write n c => exact .inr ⟨n, by simp [newestContent]⟩
    | read n rt holds used =>
      rcases ih with h | ⟨m, h⟩
      · exact .inl h
      · exact .inr ⟨m, List.mem_cons_of_mem _ h⟩

/-- A list without a write leaves the base. -/
theorem newestContent_of_no_write {base : EsrContent} {l : List WindowAccess} (h : l.any (·.isWrite) = false) :
    newestContent base l = base := by
  rcases newestContent_cases base l with e | ⟨n, e⟩
  · exact e
  · rw [List.any_eq_false] at h
    exact absurd rfl (h _ e)

/-- A read that nothing leaves unordered sees the register's content. -/
theorem contentSeen_ordered {n : EsrName} {s : State} (h : readRaces n s = false) : contentSeen n s = s.esrEl1 := by
  unfold contentSeen
  have hn : (s.window.order.take (overtaken n none s)).any (·.isWrite) = false := by
    cases hw : inWindow s
    · simp [overtaken, hw]
    · have ho : (overtakable n none s.window).any (·.isWrite) = false := by simpa [readRaces, hw] using h
      rw [take_overtaken]
      rw [List.any_eq_false] at ho ⊢
      exact fun a ha => ho a (List.mem_of_mem_take ha)
  simp [hn]

/-- Any read sees the register's content, the one from before the window, or one written in it (R47). -/
theorem contentSeen_cases (n : EsrName) (s : State) :
    contentSeen n s = s.esrEl1 ∨
      (s.window.order ≠ [] ∧ (contentSeen n s = s.window.before ∨ ∃ m, WindowAccess.write m (contentSeen n s) ∈ s.window.order)) := by
  by_cases h : (s.window.order.take (overtaken n none s)).any (·.isWrite) = true
  · have hc : contentSeen n s = newestContent s.window.before (s.window.order.drop (overtaken n none s)) := by
      simp only [contentSeen, h, if_true]
    refine .inr ⟨fun he => by simp [he] at h, ?_⟩
    rw [hc]
    exact (newestContent_cases _ _).imp id fun ⟨m, hm⟩ => ⟨m, List.mem_of_mem_drop hm⟩
  · exact .inl (by simp [contentSeen, h])

/-- What marking registers does to the writes of a window: nothing. -/
@[simp] theorem write_mem_useRegister {n : EsrName} {c : EsrContent} {rt : BitVec 5} {w : El3Window} :
    WindowAccess.write n c ∈ (useRegister rt w).order ↔ WindowAccess.write n c ∈ w.order := by
  simp only [useRegister, List.mem_map]
  constructor
  · rintro ⟨a, ha, he⟩
    cases a <;> simp_all [WindowAccess.afterUse]
  · exact fun h => ⟨_, h, rfl⟩

@[simp] theorem write_mem_overwriteRegister {n : EsrName} {c : EsrContent} {rt : BitVec 5} {w : El3Window} :
    WindowAccess.write n c ∈ (overwriteRegister rt w).order ↔ WindowAccess.write n c ∈ w.order := by
  simp only [overwriteRegister, List.mem_map]
  constructor
  · rintro ⟨a, ha, he⟩
    cases a <;> simp_all [WindowAccess.afterOverwrite]
  · exact fun h => ⟨_, h, rfl⟩

@[simp] theorem useRegister_before (rt : BitVec 5) (w : El3Window) : (useRegister rt w).before = w.before := rfl
@[simp] theorem overwriteRegister_before (rt : BitVec 5) (w : El3Window) : (overwriteRegister rt w).before = w.before := rfl
@[simp] theorem useRegister_order_eq_nil {rt : BitVec 5} {w : El3Window} : (useRegister rt w).order = [] ↔ w.order = [] := by
  simp [useRegister]
@[simp] theorem overwriteRegister_order_eq_nil {rt : BitVec 5} {w : El3Window} :
    (overwriteRegister rt w).order = [] ↔ w.order = [] := by
  simp [overwriteRegister]

/-- Putting an access into a list adds it and nothing else. -/
theorem mem_insertBehind {k : Nat} {a b : WindowAccess} {l : List WindowAccess} : b ∈ insertBehind k a l ↔ b = a ∨ b ∈ l := by
  simp only [insertBehind, List.mem_append, List.mem_cons]
  conv_rhs => rw [← List.take_append_drop k l, List.mem_append]
  tauto

/-- The window an access joins: the register's content where it is the first, the window as it is otherwise. -/
theorem windowNow_cases (s : State) :
    (s.window.order = [] ∧ windowNow s = { before := s.esrEl1, order := [] }) ∨ (s.window.order ≠ [] ∧ windowNow s = s.window) := by
  unfold windowNow
  cases h : s.window.order with
  | nil => exact .inl ⟨rfl, rfl⟩
  | cons a rest => exact .inr ⟨by simp, rfl⟩

/-- The writes of the window an access joins are those of the window. -/
@[simp] theorem windowNow_order (s : State) : (windowNow s).order = s.window.order := by
  rcases windowNow_cases s with ⟨h, e⟩ | ⟨-, e⟩ <;> simp [e]
  exact h

/-- The content from before the window an access joins. -/
theorem windowNow_before_cases (s : State) :
    (windowNow s).before = s.esrEl1 ∨ (s.window.order ≠ [] ∧ (windowNow s).before = s.window.before) := by
  rcases windowNow_cases s with ⟨-, e⟩ | ⟨h, e⟩
  · exact .inl (by rw [e])
  · exact .inr ⟨h, by rw [e]⟩

/-! ### Reading register ESR_EL1 -/

/-- The register a read of ESR_EL1 fills (R161). -/
theorem readX_readEsrEl1_same (n : EsrName) (rt : BitVec 5) (s : State) :
    readX (readEsrEl1 n rt s) rt = if rt.toNat < 31 then valueOf s (contentSeen n s) else 0 := by
  rw [readX_congr (readEsrEl1_x n rt s)]; simp

/-- A read of ESR_EL1 leaves the other registers. -/
theorem readX_readEsrEl1_other (n : EsrName) {rt r : BitVec 5} (s : State) (h : r ≠ rt) :
    readX (readEsrEl1 n rt s) r = readX s r := by
  rw [readX_congr (readEsrEl1_x n rt s), readX_writeX_other _ _ _ _ h]

/-- A read adds no write to the window, and its content from before is the window's or the register's. -/
theorem windowAfterRead_contents (n : EsrName) (rt : BitVec 5) (s : State) :
    (∀ m c, WindowAccess.write m c ∈ (windowAfterRead n rt s).order → WindowAccess.write m c ∈ s.window.order) ∧
      ((windowAfterRead n rt s).order ≠ [] → (windowAfterRead n rt s).before = s.esrEl1 ∨
        (s.window.order ≠ [] ∧ (windowAfterRead n rt s).before = s.window.before)) := by
  unfold windowAfterRead
  split
  · refine ⟨fun m c h => ?_, fun _ => windowNow_before_cases s⟩
    simpa [mem_insertBehind] using h
  · simp [windowClosed]

/-! ### Writing register ESR_EL1 -/

/-- Everything a write of ESR_EL1 by software can do (R160, R162, R213, R47). -/
theorem writeEsrEl1_cases (n : EsrName) (rt : BitVec 5) (s : State) :
    (∃ c, contentWritten s.params (readX s rt) = some c ∧ overtakesUse n rt s = false ∧
        writeEsrEl1 n rt s = .next (complete (storeEsrEl1 n rt c s))) ∨
      (overtakesUse n rt s = true ∧ writeEsrEl1 n rt s = .refused .unordered) ∨
      (ecDefined s.params (ecOf (readX s rt)) = false ∧ s.params.cuReservedEc = .refuse ∧
        writeEsrEl1 n rt s = .refused (.reservedEc (readX s rt))) := by
  unfold writeEsrEl1
  cases h : contentWritten s.params (readX s rt) with
  | some c =>
    cases ho : overtakesUse n rt s with
    | true => exact .inr (.inl ⟨rfl, by simp⟩)
    | false => exact .inl ⟨c, rfl, rfl, by simp⟩
  | none =>
    obtain ⟨h1, h2⟩ := contentWritten_eq_none.mp h
    exact .inr (.inr ⟨h1, h2, rfl⟩)

/-- A write that nothing leaves unordered stores its content and changes no register. -/
theorem storeEsrEl1_ordered {n : EsrName} {rt : BitVec 5} {c : EsrContent} {s : State} (h : writeRaces n rt s = false) :
    (storeEsrEl1 n rt c s).esrEl1 = c ∧ (storeEsrEl1 n rt c s).x = s.x := by
  simp [overtaken_of_not_writeRaces h, newestContent, reviseReads]

/-- The content after any write: its own, or one written in the window by the other name (R47). -/
theorem storeEsrEl1_esrEl1_cases (n : EsrName) (rt : BitVec 5) (c : EsrContent) (s : State) :
    (storeEsrEl1 n rt c s).esrEl1 = c ∨
      ∃ m, m ≠ n ∧ WindowAccess.write m (storeEsrEl1 n rt c s).esrEl1 ∈ s.window.order := by
  rw [storeEsrEl1_esrEl1]
  refine (newestContent_cases _ _).imp id fun ⟨m, h⟩ => ⟨m, ?_, List.mem_of_mem_take h⟩
  exact otherName_of_overtaken (a := .write m _) h

/-- A write adds itself to the window and no other write, and the content from before is the window's or the register's. -/
theorem windowAfterWrite_contents (n : EsrName) (rt : BitVec 5) (c : EsrContent) (s : State) :
    (∀ m d, WindowAccess.write m d ∈ (windowAfterWrite n rt c s).order → d = c ∨ WindowAccess.write m d ∈ s.window.order) ∧
      ((windowAfterWrite n rt c s).order ≠ [] → (windowAfterWrite n rt c s).before = s.esrEl1 ∨
        (s.window.order ≠ [] ∧ (windowAfterWrite n rt c s).before = s.window.before)) := by
  unfold windowAfterWrite
  split
  · refine ⟨fun m d h => ?_, fun _ => windowNow_before_cases s⟩
    simp only [mem_insertBehind, WindowAccess.write.injEq, write_mem_useRegister, windowNow_order] at h
    exact h.imp (·.2) id
  · simp [windowClosed]

/-- A register that no access of the list fills is left by revising the list's reads. -/
theorem readX_reviseReads_other {c : EsrContent} {l : List WindowAccess} {r : BitVec 5}
    (h : ∀ n u, WindowAccess.read n r true u ∉ l) (s : State) : readX (reviseReads c l s) r = readX s r := by
  induction l generalizing s with
  | nil => rfl
  | cons a rest ih =>
    have hr := fun n u hm => h n u (List.mem_cons_of_mem a hm)
    cases a with
    | write n c => rfl
    | read n rt holds used =>
      cases holds with
      | false => exact ih hr s
      | true =>
        have hne : r ≠ rt := fun e => h n used (by simp [e])
        rw [reviseReads, if_pos rfl, ih hr]
        exact readX_writeX_other s rt r _ hne

/-! ### Taking an exception -/

/-- What the environment contributes to a syndrome does not depend on what it presents next. -/
@[simp] theorem syndromeInputs_inputs (s : State) (l : List Input) : syndromeInputs { s with inputs := l } = syndromeInputs s := rfl

/-- An exception taken to EL1 writes ESR_EL1 and no other syndrome register (R179). -/
theorem enterException_el1 {r : ExceptionRecord} (s : State) (h : r.target = .el1) :
    (enterException r s).esrEl1 = .known (esrEl1Entry s r) ∧ (enterException r s).esrEl2 = s.esrEl2 ∧
      (enterException r s).esrEl3 = s.esrEl3 := by
  simp [enterException, recordSyndrome, h]

/-- An exception taken to EL2 writes ESR_EL2 and no other syndrome register (R164, R179). -/
theorem enterException_el2 {r : ExceptionRecord} (s : State) (h : r.target = .el2) :
    (enterException r s).esrEl1 = s.esrEl1 ∧ (enterException r s).esrEl2 = esrHigherEntry s r ∧
      (enterException r s).esrEl3 = s.esrEl3 := by
  simp [enterException, recordSyndrome, h]

/-- An exception taken to EL3 writes ESR_EL3 and no other syndrome register (R179). -/
theorem enterException_el3 {r : ExceptionRecord} (s : State) (h : r.target = .el3) :
    (enterException r s).esrEl1 = s.esrEl1 ∧ (enterException r s).esrEl2 = s.esrEl2 ∧
      (enterException r s).esrEl3 = esrHigherEntry s r := by
  simp [enterException, recordSyndrome, h]

/-- The handler does not depend on the syndrome. -/
theorem enterException_pc {r : ExceptionRecord} (s : State) (h : r.target ≠ .el0) :
    (enterException r s).pc = handlerOf s r.target := by
  cases ht : r.target <;> simp_all [enterException, recordSyndrome, handlerOf, enterLevel]

/-- Everything `TakeException` can answer (R178, R179). -/
theorem takeException_cases (r : ExceptionRecord) (s : State) :
    (recordProblem s.params r = none ∧ recordFits s r = true ∧ takeException r s = .next (enterException r s)) ∨
      ((recordProblem s.params r ≠ none ∨ recordFits s r = false) ∧ ∃ q, takeException r s = .refused (.badRecord q)) := by
  unfold takeException
  cases hp : recordProblem s.params r with
  | some q => exact .inr ⟨.inl (by simp), q, rfl⟩
  | none =>
    cases hf : recordFits s r with
    | true => exact .inl ⟨rfl, rfl, by simp⟩
    | false => exact .inr ⟨.inr rfl, .otherState, by simp⟩

/-- What a record the model takes satisfies, check by check. -/
theorem recordProblem_none {p : Params} {r : ExceptionRecord} (h : recordProblem p r = none) :
    targetOk p r = true ∧ classDefined p r = true ∧ classTargetOk r = true ∧ execStateOk p r = true ∧ wfxLevelOk r = true ∧
      registersOk p r = true ∧ directionOk r = true ∧ faultStatusOk p r = true ∧ setOk p r = true ∧ sErrorOk p r = true ∧ addressingOk r = true ∧ fpFlagsOk p r = true := by
  revert h
  unfold recordProblem
  cases targetOk p r <;> cases classDefined p r <;> cases classTargetOk r <;> cases execStateOk p r <;> cases wfxLevelOk r <;>
    cases registersOk p r <;> cases directionOk r <;> cases faultStatusOk p r <;> cases setOk p r <;> cases sErrorOk p r <;> cases addressingOk r <;> cases fpFlagsOk p r <;> simp

/-- The target of a record the model takes is a level exceptions are taken to. -/
theorem target_ne_el0 {p : Params} {r : ExceptionRecord} (h : recordProblem p r = none) : r.target ≠ .el0 := by
  have := (recordProblem_none h).1
  simp [targetOk] at this
  exact this.1.1.1

/-- The level that takes a synchronous exception is never EL0. -/
theorem syncTarget_ne_el0 (s : State) : syncTarget s ≠ .el0 := by
  unfold syncTarget; split <;> [split; skip; skip; skip] <;> simp

/-! ### NVMem[0x138] -/

/-- Everything a read of NVMem[0x138] can do (R42, R44, R165). -/
theorem readNvMem_cases (rt : BitVec 5) (s : State) :
    (nvBaseValid s.params = true ∧ s.env.nvReadFault = none ∧ readNvMem rt s =
        .next (completeRead rt (Memory.read64 s.params.nvBigEndian s.mem (nvAddress s.params)) s)) ∨
      (nvBaseValid s.params = true ∧ ∃ r, s.env.nvReadFault = some r ∧ readNvMem rt s = nvFault r false s) ∨
      (nvBaseValid s.params = false ∧ readNvMem rt s = .refused .nvBase) := by
  unfold readNvMem
  cases hb : nvBaseValid s.params
  · exact .inr (.inr ⟨rfl, rfl⟩)
  · cases hf : s.env.nvReadFault with
    | none => exact .inl ⟨rfl, rfl, by simp⟩
    | some r => exact .inr (.inl ⟨rfl, r, rfl, by simp⟩)

/-- Everything a write of NVMem[0x138] can do (R42, R44, R165). -/
theorem writeNvMem_cases (rt : BitVec 5) (s : State) :
    (nvBaseValid s.params = true ∧ s.env.nvWriteFault = none ∧ writeNvMem rt s =
        .next (completeWrite rt { s with mem := Memory.write64 s.params.nvBigEndian s.mem (nvAddress s.params) (readX s rt) })) ∨
      (nvBaseValid s.params = true ∧ ∃ r, s.env.nvWriteFault = some r ∧ writeNvMem rt s = nvFault r true s) ∨
      (nvBaseValid s.params = false ∧ writeNvMem rt s = .refused .nvBase) := by
  unfold writeNvMem
  cases hb : nvBaseValid s.params
  · exact .inr (.inr ⟨rfl, rfl⟩)
  · cases hf : s.env.nvWriteFault with
    | none => exact .inl ⟨rfl, rfl, by simp⟩
    | some r => exact .inr (.inl ⟨rfl, r, rfl, by simp⟩)

/-- Everything a fault on the NVMem access can do (R44). -/
theorem nvFault_cases (r : ExceptionRecord) (b : Bool) (s : State) :
    (recordProblem s.params (nvFaultRecord r b s) = none ∧ nvFault r b s = .next (raiseHere (nvFaultRecord r b s) s)) ∨
      (∃ q, recordProblem s.params (nvFaultRecord r b s) = some q ∧ nvFault r b s = .refused (.badRecord q)) := by
  unfold nvFault
  cases h : recordProblem s.params (nvFaultRecord r b s) with
  | none => exact .inl ⟨rfl, rfl⟩
  | some q => exact .inr ⟨q, rfl, rfl⟩

/-! ### DFSR and interrupts -/

/-- Everything a DFSR write can do (R32, D23, R213). -/
theorem writeDfsr_cases (v : BitVec 32) (s : State) :
    (s.params.haveAarch32 = true ∧ ∃ c, contentWritten s.params (hiOf (valueOf s s.esrEl1) ++ v) = some c ∧
        writeDfsr v s = .next { s with esrEl1 := c, window := windowClosed, draws := s.draws + 1 }) ∨
      (∃ q, writeDfsr v s = .refused q) := by
  unfold writeDfsr
  cases s.params.haveAarch32
  · exact .inr ⟨_, rfl⟩
  · cases h : contentWritten s.params (hiOf (valueOf s s.esrEl1) ++ v) with
    | none => exact .inr ⟨_, by simp; rfl⟩
    | some c => exact .inl ⟨rfl, c, rfl, by simp⟩

/-- Everything an IRQ or FIQ can do (R220). -/
theorem takeInterrupt_cases (l : ExceptionLevel) (s : State) :
    (targetOk s.params { target := l, fromEl := s.pstateEl } = true ∧ tgeAllows s s.pstateEl l = true ∧
        takeInterrupt l s = .next (enterLevel l s)) ∨
      ((targetOk s.params { target := l, fromEl := s.pstateEl } = false ∨ tgeAllows s s.pstateEl l = false) ∧
        ∃ q, takeInterrupt l s = .refused (.badRecord q)) := by
  unfold takeInterrupt
  cases ht : targetOk s.params { target := l, fromEl := s.pstateEl }
  · exact .inr ⟨.inl rfl, _, rfl⟩
  · cases hg : tgeAllows s s.pstateEl l
    · exact .inr ⟨.inr rfl, _, rfl⟩
    · exact .inl ⟨rfl, rfl, rfl⟩

/-- An instruction outside the spec adds no access to the window and takes none out: it marks the reads whose registers it uses or
overwrites. -/
theorem applyOther_window_contents (e : OtherEffect) (s : State) :
    (∀ n c, WindowAccess.write n c ∈ (applyOther e s).window.order ↔ WindowAccess.write n c ∈ s.window.order) ∧
      (applyOther e s).window.before = s.window.before ∧ ((applyOther e s).window.order = [] ↔ s.window.order = []) := by
  have overwritten : ∀ (l : List (BitVec 5 × Word)) (w : El3Window),
      (∀ n c, WindowAccess.write n c ∈ (l.foldl (fun w m => overwriteRegister m.1 w) w).order ↔ WindowAccess.write n c ∈ w.order) ∧
        (l.foldl (fun w m => overwriteRegister m.1 w) w).before = w.before ∧
        ((l.foldl (fun w m => overwriteRegister m.1 w) w).order = [] ↔ w.order = []) := by
    intro l
    induction l with
    | nil => intro w; simp
    | cons m rest ih => intro w; simpa using ih (overwriteRegister m.1 w)
  have used : ∀ (l : List (BitVec 5)) (w : El3Window),
      (∀ n c, WindowAccess.write n c ∈ (l.foldl (fun w t => useRegister t w) w).order ↔ WindowAccess.write n c ∈ w.order) ∧
        (l.foldl (fun w t => useRegister t w) w).before = w.before ∧
        ((l.foldl (fun w t => useRegister t w) w).order = [] ↔ w.order = []) := by
    intro l
    induction l with
    | nil => intro w; simp
    | cons t rest ih => intro w; simpa using ih (useRegister t w)
  obtain ⟨a1, a2, a3⟩ := used e.reads s.window
  obtain ⟨b1, b2, b3⟩ := overwritten e.writes (e.reads.foldl (fun w t => useRegister t w) s.window)
  rw [applyOther_window]
  exact ⟨fun n c => (b1 n c).trans (a1 n c), b2.trans a2, b3.trans a3⟩

/-! ### Inversions -/

/-- What an accessor can do: one of the eight shared outcomes. -/
theorem exec_cases {i : Instr} {s t : State} (h : exec i s = .next t) :
    t = undefinedAccess s ∨ (s.pstateEl = .el1 ∧ el2Enabled s = true ∧ t = systemAccessTrap i.name i.isRead i.rt s) ∨
      (i.isRead = true ∧ s.pstateEl ≠ .el0 ∧ t = readEsrEl1 i.name i.rt s) ∨
      (i.isRead = false ∧ s.pstateEl ≠ .el0 ∧ writeEsrEl1 i.name i.rt s = .next t) ∨
      (i.isRead = true ∧ t = readEsrEl2 i.rt s) ∨ (i.isRead = false ∧ t = writeEsrEl2 i.rt s) ∨
      (i.isRead = true ∧ s.pstateEl = .el1 ∧ el2Enabled s = true ∧ readNvMem i.rt s = .next t) ∨
      (i.isRead = false ∧ s.pstateEl = .el1 ∧ el2Enabled s = true ∧ writeNvMem i.rt s = .next t) := by
  cases i <;>
    simp only [exec, execMrsEsrEl1, execMsrEsrEl1, execMrsEsrEl12, execMsrEsrEl12, execMrsEsrEl2, execMsrEsrEl2] at h <;>
    split at h <;> rename_i hel <;> (try split at h) <;> (try split at h) <;>
    simp_all [Instr.name, Instr.isRead, Instr.rt]

/-- What a step can do: it takes what the environment presents first, and runs the decoded accessor, faults on a misaligned `pc`, or
applies the event. -/
theorem step_cases {s t : State} (h : step s = .next t) :
    (∃ w rest i, s.inputs = .execute w :: rest ∧ pcAligned s = true ∧ decode w = .ok i ∧
        exec i { s with inputs := rest } = .next t) ∨
      (∃ w rest, s.inputs = .execute w :: rest ∧ pcAligned s = false ∧ t = pcAlignmentFault { s with inputs := rest }) ∨
      (∃ r rest, s.inputs = .exception r :: rest ∧ recordProblem s.params r = none ∧
        recordFits { s with inputs := rest } r = true ∧ t = enterException r { s with inputs := rest }) ∨
      (∃ l rest, s.inputs = .interrupt l :: rest ∧ t = enterLevel l { s with inputs := rest }) ∨
      (∃ l a rest, s.inputs = .exceptionReturn l a :: rest ∧ t = exceptionReturn l a { s with inputs := rest }) ∨
      (∃ rest, s.inputs = .contextSync :: rest ∧ t = contextSync { s with inputs := rest }) ∨
      (∃ v rest c, s.inputs = .dfsrWrite v :: rest ∧ s.params.haveAarch32 = true ∧
        contentWritten s.params (hiOf (valueOf s s.esrEl1) ++ v) = some c ∧
        t = { s with inputs := rest, esrEl1 := c, window := windowClosed, draws := s.draws + 1 }) ∨
      (∃ e rest, s.inputs = .environment e :: rest ∧ t = setEnvironment e { s with inputs := rest }) ∨
      (∃ e rest, s.inputs = .otherInstruction e :: rest ∧ t = applyOther e { s with inputs := rest }) ∨
      (∃ r rest, s.inputs = .reset r :: rest ∧ t = applyReset r { s with inputs := rest }) := by
  unfold step at h
  split at h
  · cases h
  · next w rest hin =>
    unfold runWord at h
    cases ha : pcAligned { s with inputs := rest } with
    | false =>
      rw [ha] at h
      exact .inr (.inl ⟨w, rest, hin, ha, by simpa using h.symm⟩)
    | true =>
      rw [ha] at h
      cases hd : decode w with
      | error e => simp [hd] at h
      | ok i => exact .inl ⟨w, rest, i, hin, ha, hd, by simpa [hd] using h⟩
  · next i rest hne hin =>
    cases i with
    | execute w => exact absurd rfl (hne w)
    | exception r =>
      rcases takeException_cases r { s with inputs := rest } with ⟨hp, hf, he⟩ | ⟨-, q, hq⟩
      · simp only [applyEvent, he, Host.Outcome.next.injEq] at h
        exact .inr (.inr (.inl ⟨r, rest, hin, hp, hf, h.symm⟩))
      · simp [applyEvent, hq] at h
    | interrupt l =>
      rcases takeInterrupt_cases l { s with inputs := rest } with ⟨-, -, he⟩ | ⟨-, q, hq⟩
      · simp only [applyEvent, he, Host.Outcome.next.injEq] at h
        exact .inr (.inr (.inr (.inl ⟨l, rest, hin, h.symm⟩)))
      · simp [applyEvent, hq] at h
    | exceptionReturn l a =>
      simp only [applyEvent, Host.Outcome.next.injEq] at h
      exact .inr (.inr (.inr (.inr (.inl ⟨l, a, rest, hin, h.symm⟩))))
    | contextSync =>
      simp only [applyEvent, Host.Outcome.next.injEq] at h
      exact .inr (.inr (.inr (.inr (.inr (.inl ⟨rest, hin, h.symm⟩)))))
    | dfsrWrite v =>
      rcases writeDfsr_cases v { s with inputs := rest } with ⟨ha, c, hc, he⟩ | ⟨q, hq⟩
      · simp only [applyEvent, he, Host.Outcome.next.injEq] at h
        exact .inr (.inr (.inr (.inr (.inr (.inr (.inl ⟨v, rest, c, hin, ha, hc, h.symm⟩))))))
      · simp [applyEvent, hq] at h
    | environment e =>
      simp only [applyEvent, Host.Outcome.next.injEq] at h
      exact .inr (.inr (.inr (.inr (.inr (.inr (.inr (.inl ⟨e, rest, hin, h.symm⟩)))))))
    | otherInstruction e =>
      simp only [applyEvent, Host.Outcome.next.injEq] at h
      exact .inr (.inr (.inr (.inr (.inr (.inr (.inr (.inr (.inl ⟨e, rest, hin, h.symm⟩))))))))
    | reset r =>
      simp only [applyEvent, Host.Outcome.next.injEq] at h
      exact .inr (.inr (.inr (.inr (.inr (.inr (.inr (.inr (.inr ⟨r, rest, hin, h.symm⟩))))))))

end Sys2Proof.Machine
end

