-- ==== Sys2Proof/Laws/PerInstr.lean ====
section
/-! SUPPORT. A statement made per accessor: its word holds each field of 30_encoding.md R55 in its place. -/

namespace Sys2Proof.Laws.Encoded

/-- The word of an accessor carries the fields of R55, and the accessor is the one its name, direction and operand say. -/
def Statement (i : Instr) : Prop :=
  (encode i).extractLsb' 22 10 = 0b1101010100 ∧ (encode i).extractLsb' 21 1 = BitVec.ofBool i.isRead ∧
    (encode i).extractLsb' 19 2 = 0b11 ∧ (encode i).extractLsb' 16 3 = i.name.op1 ∧ (encode i).extractLsb' 12 4 = 0b0101 ∧
    (encode i).extractLsb' 8 4 = 0b0010 ∧ (encode i).extractLsb' 5 3 = 0b000 ∧ (encode i).extractLsb' 0 5 = i.rt ∧
    accessor i.isRead i.name i.rt = i

theorem mrsEsrEl1 (rt : BitVec 5) : Statement (.mrsEsrEl1 rt) := by
  unfold Statement; revert rt; decide

theorem msrEsrEl1 (rt : BitVec 5) : Statement (.msrEsrEl1 rt) := by
  unfold Statement; revert rt; decide

theorem mrsEsrEl12 (rt : BitVec 5) : Statement (.mrsEsrEl12 rt) := by
  unfold Statement; revert rt; decide

theorem msrEsrEl12 (rt : BitVec 5) : Statement (.msrEsrEl12 rt) := by
  unfold Statement; revert rt; decide

theorem mrsEsrEl2 (rt : BitVec 5) : Statement (.mrsEsrEl2 rt) := by
  unfold Statement; revert rt; decide

theorem msrEsrEl2 (rt : BitVec 5) : Statement (.msrEsrEl2 rt) := by
  unfold Statement; revert rt; decide

end Sys2Proof.Laws.Encoded
end

