-- ==== Sys2Proof/Tests/Slice0.lean ====
section
/-! SUPPORT. Tests by the vectors of spec/95_test_vectors.md (TV, PR), and for every statement with hypotheses a concrete case that meets
them. -/

namespace Sys2Proof.Tests

open Sys2Proof Sys2Proof.Machine

/-! ### Helpers -/

/-- A field of the next state, if there is one. -/
def got {α : Type} (o : Result) (f : State → α) : Option α :=
  match o with
  | .next t => some (f t)
  | _ => none

/-- What a step was refused with. -/
def refusal (o : Result) : Option Refusal :=
  match o with
  | .refused q => some q
  | _ => none

/-- A state at a level, with a known ESR_EL1. -/
def atLevel (l : ExceptionLevel) : State := { State.reset with pstateEl := l, esrEl1 := .known 0x02000000, pc := 0x1000 }

/-- EL2 is enabled, with these HCR_EL2 bits. -/
def withHcr (s : State) (h : HcrEl2) : State := { s with env := { s.env with hcr := h, el2Enabled := true } }

/-- At EL1, as TV80 has it: both names' NVMem conditions are `nv1`. -/
def nested (nv1 : Bool) : State :=
  { withHcr (atLevel .el1) { nv := true, nv1 := nv1, nv2 := true } with
    params := { Params.atReset with nvBase := 0x80000 } }

/-- At EL3 with E2H, as PR7 has it: x0 holds 0x56000001, x1 0x96000045. -/
def pr7 : State := writeX (writeX (withHcr (atLevel .el3) { e2h := true }) 0 0x56000001) 1 0x96000045

/-- A state that is presented an input. -/
def presented (s : State) (i : Input) : State := { s with inputs := [i] }

/-- A record of a class from EL0 or EL1, taken to EL1. -/
def fromLower (c : ExcClass) : ExceptionRecord := { cls := c }
def fromSame (c : ExcClass) : ExceptionRecord := { cls := c, fromEl := .el1 }

/-- A record of a class from A32 or T32 at EL0. Its register operands are R15's descriptor. -/
def fromA32 (c : ExcClass) : ExceptionRecord :=
  { cls := c, fromState := .aarch32, iset := .a32, rt := .a32 15, rt2 := .a32 15, rn := .a32 15 }
def fromT32 (c : ExcClass) : ExceptionRecord := { fromA32 c with iset := .t32 }

/-- The parameters of the tests. -/
abbrev P : Params := Params.atReset

/-! ### Decoding (TV70 to TV78) -/

theorem test_decode_mrsEsrEl1 : decode 0b11010101001110000101001000011110 = .ok (.mrsEsrEl1 30) := by decide
theorem test_decode_msrEsrEl1 : decode 0b11010101000110000101001000000111 = .ok (.msrEsrEl1 7) := by decide
theorem test_decode_mrsEsrEl12 : decode 0b11010101001111010101001000000011 = .ok (.mrsEsrEl12 3) := by decide
theorem test_decode_msrEsrEl12 : decode 0b11010101000111010101001000011111 = .ok (.msrEsrEl12 31) := by decide
theorem test_decode_mrsEsrEl2 : decode 0b11010101001111000101001000000000 = .ok (.mrsEsrEl2 0) := by decide
theorem test_decode_msrEsrEl2 : decode 0b11010101000111000101001000000001 = .ok (.msrEsrEl2 1) := by decide
theorem test_decode_other_op2 : decode 0xD5385220 = .error .otherSystemRegister := by decide
theorem test_decode_other_op1 : decode 0xD5395200 = .error .otherSystemRegister := by decide
theorem test_decode_no_move : decode 0xD4200000 = .error .notSystemMove := by decide
theorem test_table_word : decodeTableWord 32 0xD51C5200 = some (.msrEsrEl2 0) ∧ decodeTableWord 32 0xD5385220 = none := by decide

/-! ### The interface of the host: each row runs as the first instruction after reset -/

theorem test_rows_run_from_reset :
    ∀ w ∈ [0xD5385200, 0xD5185200, 0xD53D5200, 0xD51D5200, 0xD53C5200, 0xD51C5200],
      (got (step (State.reset.withFetchWord 32 w)) (fun _ => true)) = some true := by decide

/-! ### The accessors -/

/-- TV3 with TV6's bits [63:32]: the written value reads back with RES0_HI_WRITABLE. -/
theorem test_msrEsrEl1_res0 :
    got (step ({ writeX (atLevel .el1) 0 0xDEADBEEF56001234 with params := { P with res0HiWritable := true } }.withFetchWord 32 0xD5185200))
      (fun t => (t.esrEl1, t.pc)) = some (.known 0xDEADBEEF56001234, 0x1004) ∧
    got (step ((writeX (atLevel .el1) 0 0xDEADBEEF56001234).withFetchWord 32 0xD5185200)) (fun t => t.esrEl1) =
      some (.known 0x56001234) := by decide

/-- TV11: a reserved EC is refused, TV9: XZR writes zero. -/
theorem test_msrEsrEl1_reserved :
    refusal (step ((writeX (atLevel .el1) 0 0x08000000).withFetchWord 32 0xD5185200)) = some (.reservedEc 0x08000000) ∧
    got (step ((atLevel .el1).withFetchWord 32 0xD518521F)) (fun t => t.esrEl1) = some (.known 0) := by decide

/-- TV4, TV10: MRS to X1, and to XZR. -/
theorem test_mrsEsrEl1 :
    got (step ((atLevel .el1).withFetchWord 32 0xD5385201)) (fun t => (readX t 1, readX t 0)) = some (0x02000000, 0) ∧
    got (step ((atLevel .el1).withFetchWord 32 0xD538521F)) (fun t => (readX t 31, t.x)) = some (0, (atLevel .el1).x) := by decide

/-- TV82, TV86: NVMem is read whole. -/
theorem test_mrsEsrEl1_mem :
    got (exec (.mrsEsrEl1 1) { nested true with mem := [(0x80138, 0x34), (0x80139, 0x12), (0x8013F, 0xFF)] })
      (fun t => readX t 1) = some 0xFF00000000001234 := by decide

/-- PR2: the E2H aliases at EL2. -/
theorem test_mrsEsrEl12_pr2 :
    got (exec (.mrsEsrEl12 2) { withHcr (atLevel .el2) { e2h := true } with esrEl2 := 0x62301465 }) (fun t => readX t 2) = some 0x02000000 ∧
    got (exec (.mrsEsrEl1 2) { withHcr (atLevel .el2) { e2h := true } with esrEl2 := 0x62301465 }) (fun t => readX t 2) =
      some 0x62301465 := by decide

/-- TV61: the trap syndrome is one the opaque draw does not touch, in its low half; x3 is unchanged. -/
theorem test_mrsEsrEl12_trap :
    got (exec (.mrsEsrEl12 3) (nested true)) (fun t => (t.pstateEl, t.preferredReturn, readX t 3)) = some (.el2, 0x1000, 0) := by decide

/-- TV84: the bytes of the slot, little-endian. -/
theorem test_msrEsrEl12_mem :
    got (exec (.msrEsrEl12 2) (writeX (nested false) 2 0x96000007)) (fun t => t.mem) =
      some [(0x80138, 0x07), (0x8013B, 0x96)] := by decide

/-- TV81: the bytes of the slot, big-endian. -/
theorem test_msrEsrEl1_mem :
    got (exec (.msrEsrEl1 0) { writeX (nested true) 0 0x56001234 with params := { P with nvBase := 0x80000, nvBigEndian := true } })
      (fun t => t.mem) = some [(0x8013C, 0x56), (0x8013E, 0x12), (0x8013F, 0x34)] := by decide

/-- PR3: the ESR_EL2 name reaches register ESR_EL1 under NV2 and NV. -/
theorem test_mrsEsrEl2_nv :
    got (exec (.mrsEsrEl2 2) { nested true with esrEl2 := 5 }) (fun t => readX t 2) = some 0x02000000 := by decide

/-- PR2: the ESR_EL2 name reaches register ESR_EL2 at EL2. -/
theorem test_msrEsrEl2_el2 :
    got (exec (.msrEsrEl2 1) (writeX (atLevel .el2) 1 0xFFFFFFFF08000000)) (fun t => (t.esrEl2, t.esrEl1)) =
      some (0xFFFFFFFF08000000, .known 0x02000000) := by decide

/-- TV90, TV93: UNDEFINED accessors taken to EL1. -/
theorem test_undefined_level :
    got (exec (.mrsEsrEl1 0) (atLevel .el0)) (fun t => (t.pstateEl, t.preferredReturn)) = some (.el1, 0x1000) ∧
    got (exec (.msrEsrEl2 0) (atLevel .el1)) (fun t => t.pstateEl) = some .el1 := by decide

/-! ### Syndromes (TV100 to TV170), with the draw and EA_CLASS given -/

theorem test_wfx_syndromes :
    syndrome P {} (fromLower .wfx) 0 = 0x07E00000 ∧
    syndrome P {} { fromLower .wfx with isWfe := true } 0 = 0x07E00001 ∧
    syndrome P {} { fromA32 .wfx with conditional := true, cond := 1 } 0 = 0x07100000 ∧
    syndrome P {} { fromT32 .wfx with instrLen := .bits16, isWfe := true } 0xFFFFFFFFFF5FFFFF = 0x04500001 := by decide

/-- TV106 and the like: the record gives the register numbers as their AArch64 view (R178). -/
theorem test_coprocessor_syndromes :
    syndrome P {} { fromA32 .mcrCp15 with crn := 14, rt := .view 2, isRead := true } 0 = 0x0FE03841 ∧
    syndrome P {} { fromA32 .mcrCp14 with rt := .view 1, crm := 1 } 0 = 0x17E00022 ∧
    syndrome P {} { fromA32 .mrrcCp14 with rt2 := .view 3, rt := .view 2, crm := 1, isRead := true } 0 = 0x33E00C43 ∧
    syndrome P {} { fromA32 .ldcStc with imm8 := 4, rn := .view 1, add := true, p := true, isLoad := true } 0 = 0x1BE04035 := by
  decide

/-- R75, R23: the same value from a descriptor, with A64View given as the example assumes it. -/
theorem test_descriptor_view (v : Config.a64View 0x10 2 = 2) :
    syndrome P {} { fromA32 .mcrCp15 with crn := 14, rt := .a32 2, mode := 0x10, isRead := true } 0 = 0x0FE03841 := by
  simp only [syndrome, issOfRecord, layoutOfRecord, issMcr, fromA32, regField, v]
  decide

/-- R23: the descriptor 0b1111 gives 0b11111; for an UNPREDICTABLE instruction the view of a usable register, where the draw is one. -/
theorem test_descriptor_15 (v : Config.a64View 0x10 4 = 4) :
    regField (fromA32 .mcrCp15) (.a32 15) 4 = 31 ∧
    regField { fromA32 .mcrCp15 with unpredictable := true, usable := [(0x10, 4)] } (.a32 15) 4 = 4 ∧
    regField { fromA32 .mcrCp15 with unpredictable := true, usable := [(0x10, 4)] } (.a32 15) 5 = 31 := by
  have e : Config.a64View 16#5 4#4 = 4#5 := v
  refine ⟨rfl, ?_, ?_⟩ <;> (simp [regField, usableViews]; rw [e]; try decide)

theorem test_access_syndromes :
    syndrome P {} (fromLower .fpAccess) 0 = 0x1FE00000 ∧
    syndrome P {} { fromA32 .fpAccess with conditional := true, cond := 0 } 0 = 0x1F000000 ∧
    syndrome P { tge := true } (fromSame .fpAccess) 0 = 0x02000000 ∧
    syndrome P {} (fromLower .sveAccess) 0 = 0x66000000 ∧
    syndrome P {} { fromLower .sysTrap with op0 := 3, op2 := 2, op1 := 3, crn := 14, rt := .view 1, isRead := true } 0 =
      0x6234F821 := by decide

/-- TV130, TV133 on the layout alone; EA_CLASS is given as 1. -/
theorem test_instruction_abort_layout :
    issIabt P { fromLower .instAbort with fsc := 0x06 } 1 = 0x0000006 ∧
    issIabt P { fromSame .instAbort with fsc := 0x10, set := 2 } 0 = 0x0001010 ∧
    issIabt P { fromSame .instAbort with fsc := 0x10 } 1 = 0x0000210 := by decide

/-- TV136, TV138, TV143 on the layout alone, and the ESR_EL2 form that the spec gives for contrast (0x93650007). -/
theorem test_data_abort_layout :
    issDabt P {} { fromLower .dataAbort with fsc := 0x07, isWrite := true } 1 0 = 0x0000047 ∧
    issDabt P {} { fromLower .dataAbort with fsc := 0x0F, isWrite := true, isCmOrAt := true } 1 0 = 0x000014F ∧
    issDabt P {} { fromSame .dataAbort with fsc := 0x10, farNotValid := true, isWrite := true } 1 0 = 0x0000650 ∧
    issDabt P {}
      { fromLower .dataAbort with
        target := .el2, fsc := 0x07, stage2 := true
        transfer := { eligible := true, valid := true, sas := 1, sse := true, srt := .view 5 } } 1 0 = 0x1650007 ∧
    issDabt P {}
      { fromLower .dataAbort with
        target := .el2, fsc := 0x07, stage2 := true
        transfer := { eligible := true, valid := true, sas := 3, sse := true, srt := .view 5 } } 1 0 = 0x1C50007 := by decide

/-- R117: SSE is 0 for what is no load, cache maintenance and an atomic access among them. -/
theorem test_sse_of_other_operations :
    sseBit { fromLower .dataAbort with transfer := { sse := true } } = 1 ∧
    sseBit { fromLower .dataAbort with transfer := { sse := true }, isWrite := true } = 0 ∧
    sseBit { fromLower .dataAbort with transfer := { sse := true }, isCmOrAt := true } = 0 ∧
    sseBit { fromLower .dataAbort with transfer := { sse := true }, isAtomic := true } = 0 := by decide

theorem test_fp_syndromes :
    syndrome P {} { fromLower .fpExcA64 with fpTrapped := { divideByZero := true } } 0x0500 = 0xB2800502 ∧
    syndrome P {} { fromA32 .fpExcA32 with fpTrapped := { invalidOperation := true } } 0 = 0xA2800701 ∧
    syndrome { P with tfvZeroOnVector := true } {} { fromLower .fpExcA64 with isVector := true } 0xFFFFFFFFFFFFFFFF = 0xB200079F := by
  decide

/-- TV155 to TV158 on the layout alone. -/
theorem test_serror_layout :
    issSerr P { fromSame .sError with serrDfsc := 0x11, aet := 3, iesb := true } 0 0 = 0x0002C11 ∧
    issSerr P { fromSame .sError with serrImpdef := true } 0x00ABCD 0 = 0x100ABCD ∧
    issSerr P { fromSame .sError with serrDfsc := 0x11, isExternal := true } 0 1 = 0x0000211 := by decide

theorem test_debug_syndromes :
    syndrome P {} (fromLower .breakpoint) 0 = 0xC2000022 ∧
    syndrome P {} { fromSame .softwareStep with stepIsv := true, steppedLoadExclusive := true } 0 = 0xCF000062 ∧
    syndrome P {} { fromSame .watchpoint with isCmOrAt := true } 0 = 0xD6000162 ∧
    syndrome P {} { fromLower .brkA64 with imm := 0x03E8 } 0 = 0xF20003E8 ∧
    syndrome P {} { fromT32 .bkptA32 with instrLen := .bits16, imm := 0xAB } 0 = 0xE00000AB := by decide

/-- TV183, TV181: an IRQ leaves the register, a return from EL1 makes it UNKNOWN. -/
theorem test_events :
    got (step (presented (atLevel .el0) (.interrupt .el1))) (fun t => t.esrEl1) = some (.known 0x02000000) ∧
    got (step (presented (atLevel .el1) (.exceptionReturn .el0 0x9000))) (fun t => (t.esrEl1, t.pstateEl, t.pc)) =
      some (.unknown, .el0, 0x9000) ∧
    got (step (presented (atLevel .el1) (.dfsrWrite 0x56000001))) (fun t => t.dfsr) = some (some 0x56000001) := by decide

/-! ### Ill-formed records: one per check. `Instr.wellFormed` refuses no term, by the operand's type. -/

theorem test_check_target : recordProblem P { fromEl := .el2 } = some .target := by decide
theorem test_check_class : recordProblem { P with haveBti := false } (fromLower .branchTarget) = some .classAbsent := by decide
theorem test_check_no_ec : recordProblem P (fromSame .hvc) = some .noEcHere := by decide
theorem test_check_state : recordProblem P (fromLower .svcA32) = some .execState := by decide
/-- R60: a 16-bit A64 instruction, in a Data Abort whose ISV is 1 or UNKNOWN; where ISV is 0 the length is not read (R178). -/
theorem test_check_abort_length :
    (∀ t ∈ [{ eligible := true, valid := true }, ({ eligible := true, accessMode := true } : AccessTransfer)],
      recordProblem P { fromLower .dataAbort with target := .el2, stage2 := true, fsc := 7, transfer := t, instrLen := .bits16 } =
        some .execState) ∧
    recordProblem P { fromLower .dataAbort with fsc := 7, instrLen := .bits16 } = none ∧
    recordProblem P { fromT32 .dataAbort with
      target := .el2, stage2 := true, fsc := 7, transfer := { eligible := true, valid := true }, instrLen := .bits16 } = none := by decide
theorem test_check_wfx : recordProblem P (fromSame .wfx) = some .wfxLevel := by decide
/-- R23: a descriptor from AArch64 state, in SRT where ISV_S2_WALK_EXTABT alone makes ISV 1; a view from AArch32 state is taken (R178). -/
theorem test_check_register_form :
    recordProblem P { fromLower .sysTrap with rt := .a32 2 } = some .registerForm ∧
    recordProblem { P with haveRas := false, isvS2WalkExtabt := true }
      { fromLower .dataAbort with target := .el2, stage2 := true, fsc := 0x15, transfer := { srt := .a32 2 } } = some .registerForm ∧
    recordProblem P { fromA32 .mcrCp15 with rt := .view 18 } = none := by decide
/-- R78, R189: TV108's Direction 0 is the vector's error. -/
theorem test_check_direction : recordProblem P (fromA32 .mrrcCp14) = some .direction := by decide
theorem test_check_fp_control : recordProblem P { fromLower .fpAccess with fpControl := .cptrEl3Tfp } = some .noEcHere := by decide
theorem test_check_fault_status : recordProblem P { fromSame .dataAbort with fsc := 0b111101 } = some .faultStatus := by decide
theorem test_check_set : recordProblem P { fromSame .instAbort with fsc := 0b010000, set := 1 } = some .set := by decide
theorem test_check_serror : recordProblem P { fromSame .sError with serrDfsc := 0x11, aet := 4 } = some .sErrorStatus := by decide
theorem test_check_addressing : recordProblem P { fromA32 .ldcStc with literal := true, w := true } = some .addressingMode := by decide
theorem test_check_fp_flags : recordProblem P (fromLower .fpExcA64) = some .fpFlags := by decide
theorem test_check_fits : recordFits (atLevel .el1) (fromLower .svcA64) = false := by decide
/-- R180(d), R222(a): under TGE neither a record nor an IRQ goes from EL0 to EL1. -/
theorem test_check_tge :
    recordFits (withHcr (atLevel .el0) { tge := true }) (fromLower .svcA64) = false ∧
    refusal (step (presented (withHcr (atLevel .el0) { tge := true }) (.interrupt .el1))) = some (.badRecord .otherState) := by decide

/-! ### The EL3 window (PR7): MSR by one name after a read by the other -/

/-- `pr7` after `MRS X2, ESR_EL12`, and that read's register used by an instruction outside the spec. -/
def pr7Used : State :=
  { pr7 with window := { before := .known 0x02000000, order := [.read .esrEl12 2 true true] } }

/-- R47: a write that could come before a used read is refused; with that register as its source, or by the same name, it is not. -/
theorem test_window_use :
    refusal (exec (.msrEsrEl1 0) pr7Used) = some .unordered ∧
    got (exec (.msrEsrEl1 2) pr7Used) (fun t => t.esrEl1) = some (.known 0) ∧
    got (exec (.msrEsrEl12 0) pr7Used) (fun t => t.esrEl1) = some (.known 0x56000001) := by decide

/-- An instruction outside the spec that reads X2 uses the read; one that writes it alone ends what it holds. -/
theorem test_window_marks :
    got (step (presented { pr7 with window := { pr7Used.window with order := [.read .esrEl12 2 true false] } }
        (.otherInstruction { reads := [2], writes := [(3, 1)], pc := 0, stores := [] }))) (fun t => t.window.order) =
      some [.read .esrEl12 2 true true] ∧
    got (step (presented { pr7 with window := { pr7Used.window with order := [.read .esrEl12 2 true false] } }
        (.otherInstruction { reads := [], writes := [(2, 1)], pc := 0, stores := [] }))) (fun t => t.window.order) =
      some [.read .esrEl12 2 false false] := by decide

/-! ### Cases that meet the hypotheses of the statements -/

theorem witness_DecodeOfEncode : Instr.wellFormed (.mrsEsrEl1 31) = true ∧ Instr.wellFormed (.msrEsrEl2 0) = true := by decide

theorem witness_EncodeOfDecode : decode 0xD538521F = .ok (.mrsEsrEl1 31) := by decide

/-- The state of the next three witnesses: a word is presented at 0x1000 or 0x1002. -/
def givenWord (l : ExceptionLevel) (w : InstrWord) (pc : Word) : State := presented { atLevel l with pc := pc } (.execute w)

theorem witness_StepRunsTheDecodedInstruction :
    (givenWord .el1 0xD5385200 0x1000).inputs = [.execute 0xD5385200] ∧ (givenWord .el1 0xD5385200 0x1000).pc.toNat % 4 = 0 ∧
      decode 0xD5385200 = .ok (.mrsEsrEl1 0) ∧ Instr.wellFormed (.mrsEsrEl1 0) = true := by decide

theorem witness_OtherWordsAreRefused :
    (givenWord .el1 0xD5385220 0x1000).inputs = [.execute 0xD5385220] ∧ (givenWord .el1 0xD5385220 0x1000).pc.toNat % 4 = 0 ∧
      (0xD5385220 : InstrWord) &&& 0xFFFFFFE0 ∉
        [(0xD5385200 : InstrWord), 0xD5185200, 0xD53D5200, 0xD51D5200, 0xD53C5200, 0xD51C5200] := by decide

theorem witness_MisalignedPcFaultsFirst :
    (∀ l, (givenWord l 0 0x1002).inputs = [.execute 0] ∧ (givenWord l 0 0x1002).pc.toNat % 4 ≠ 0) ∧
      syncTarget (givenWord .el0 0 0x1002) = .el1 ∧ syncTarget (givenWord .el1 0 0x1001) = .el1 ∧
      syncTarget (withHcr (givenWord .el0 0 0x1003) { tge := true }) = .el2 ∧ syncTarget (givenWord .el3 0 0x1002) = .el3 := by
  refine ⟨fun l => ?_, by decide⟩
  cases l <;> decide

theorem witness_MrsReadsEsrEl1 :
    Instr.isRead (.mrsEsrEl1 1) = true ∧ reachOf (.mrsEsrEl1 1) (atLevel .el1) = .reg1 ∧ readRaces .esrEl1 (atLevel .el1) = false ∧
      (atLevel .el1).esrEl1 = .known 0x02000000 ∧
      reachOf (.mrsEsrEl12 31) (withHcr (atLevel .el2) { e2h := true }) = .reg1 ∧
      readRaces .esrEl12 (withHcr (atLevel .el2) { e2h := true }) = false ∧
      reachOf (.mrsEsrEl2 0) (nested true) = .reg1 ∧ readRaces .esrEl2 (nested true) = false := by decide

theorem witness_MrsOfUnknownCompletes :
    reachOf (.mrsEsrEl1 1) State.reset = .reg1 ∧ readRaces .esrEl1 State.reset = false ∧ State.reset.esrEl1 = .unknown := by decide

theorem witness_MsrWritesEsrEl1 :
    Instr.isRead (.msrEsrEl1 0) = false ∧ reachOf (.msrEsrEl1 0) (atLevel .el1) = .reg1 ∧
      ecDefined P (ecOf (readX (atLevel .el1) 0)) = true ∧ writeRaces .esrEl1 0 (atLevel .el1) = false ∧
      reachOf (.msrEsrEl12 31) pr7 = .reg1 ∧ ecDefined P (ecOf (readX pr7 31)) = true ∧ writeRaces .esrEl12 31 pr7 = false ∧
      reachOf (.msrEsrEl2 0) (nested false) = .reg1 ∧ writeRaces .esrEl2 0 (nested false) = false := by decide

/-- A state whose X0 holds a reserved EC, under each CU_RESERVED_EC. -/
def reservedAt (c : CuReservedEc) : State :=
  { writeX (atLevel .el1) 0 0x08000000 with params := { P with cuReservedEc := c } }

theorem witness_MsrOfReservedEc :
    Instr.isRead (.msrEsrEl1 0) = false ∧
      ∀ c ∈ [CuReservedEc.refuse, .store, .unknown], reachOf (.msrEsrEl1 0) (reservedAt c) = .reg1 ∧
        ecDefined (reservedAt c).params (ecOf (readX (reservedAt c) 0)) = false ∧ writeRaces .esrEl1 0 (reservedAt c) = false ∧
        (reservedAt c).params.cuReservedEc = c := by decide

theorem witness_MrsReadsEsrEl2 :
    Instr.isRead (.mrsEsrEl2 3) = true ∧ reachOf (.mrsEsrEl2 3) (atLevel .el2) = .reg2 ∧
      reachOf (.mrsEsrEl1 31) (withHcr (atLevel .el2) { e2h := true }) = .reg2 := by decide

theorem witness_MsrWritesEsrEl2 :
    Instr.isRead (.msrEsrEl2 3) = false ∧ reachOf (.msrEsrEl2 3) (atLevel .el3) = .reg2 ∧
      reachOf (.msrEsrEl1 31) (withHcr (atLevel .el2) { e2h := true }) = .reg2 := by decide

/-- The base of the nested states is valid, and so is the highest one. -/
abbrev validBase (b : Word) : Prop := b.toNat % 8 = 0 ∧ b.toNat ≤ 2 ^ 64 - 0x140

theorem witness_validBase : validBase (nested true).params.nvBase ∧ validBase 0xFFFFFFFFFFFFFEC0 ∧ ¬validBase 0xFFFFFFFFFFFFFEC8 := by
  decide

theorem witness_MrsReadsNvMem :
    Instr.isRead (.mrsEsrEl1 1) = true ∧ Instr.isRead (.mrsEsrEl12 31) = true ∧ reachOf (.mrsEsrEl1 1) (nested true) = .mem ∧
      reachOf (.mrsEsrEl12 31) (nested false) = .mem ∧ validBase (nested true).params.nvBase ∧
      validBase (nested false).params.nvBase ∧ (nested true).env.nvReadFault = none ∧ (nested false).env.nvReadFault = none := by decide

theorem witness_MsrWritesNvMem :
    MemoryInv (nested true) ∧ MemoryInv (nested false) ∧ Instr.isRead (.msrEsrEl1 1) = false ∧ Instr.isRead (.msrEsrEl12 1) = false ∧
      reachOf (.msrEsrEl1 1) (nested true) = .mem ∧ reachOf (.msrEsrEl12 1) (nested false) = .mem ∧
      validBase (nested true).params.nvBase ∧ validBase (nested false).params.nvBase ∧
      (nested true).env.nvWriteFault = none ∧ (nested false).env.nvWriteFault = none := ⟨rfl, rfl, by decide⟩

theorem witness_NvMemReadsBack :
    MemoryInv (nested true) ∧ Instr.isRead (.msrEsrEl1 1) = false ∧ Instr.isRead (.mrsEsrEl1 2) = true ∧
      Instr.name (.msrEsrEl1 1) = Instr.name (.mrsEsrEl1 2) ∧ reachOf (.msrEsrEl1 1) (nested true) = .mem ∧
      reachOf (.mrsEsrEl1 2) (nested true) = .mem ∧ validBase (nested true).params.nvBase ∧
      (nested true).env.nvWriteFault = none ∧ (nested true).env.nvReadFault = none := ⟨rfl, by decide⟩

/-- A nested state with another base. -/
def nestedAt (b : Word) : State := { nested true with params := { P with nvBase := b } }

theorem witness_InvalidNvBaseIsRefused :
    reachOf (.mrsEsrEl1 1) (nestedAt 0x80004) = .mem ∧ (nestedAt 0x80004).params.nvBase.toNat % 8 ≠ 0 ∧
      reachOf (.mrsEsrEl1 1) (nestedAt 0xFFFFFFFFFFFFFEC8) = .mem ∧
      2 ^ 64 - 0x140 < (nestedAt 0xFFFFFFFFFFFFFEC8).params.nvBase.toNat := by decide

/-- The record of a translation fault, and of a watchpoint, on the NVMem access. -/
def nvTranslationFault : ExceptionRecord := { cls := .dataAbort, fsc := 0x07 }
def nvWatchpoint : ExceptionRecord := { cls := .watchpoint }

/-- A nested state whose NVMem accesses fault. -/
def nestedFaulting (r : ExceptionRecord) : State :=
  { nested true with env := { (nested true).env with nvReadFault := some r, nvWriteFault := some r } }

theorem witness_NvMemFaultGoesToEl2 :
    ∀ r ∈ [nvTranslationFault, nvWatchpoint], ∀ i ∈ [Instr.mrsEsrEl1 1, .msrEsrEl1 1],
      reachOf i (nestedFaulting r) = .mem ∧ validBase (nestedFaulting r).params.nvBase ∧
        (if i.isRead then (nestedFaulting r).env.nvReadFault else (nestedFaulting r).env.nvWriteFault) = some r ∧
        recordProblem (nestedFaulting r).params (nvFaultRecord r (!i.isRead) (nestedFaulting r)) = none := by decide

theorem witness_TrappedAccessorReportsItself :
    reachOf (.mrsEsrEl1 31) (withHcr (atLevel .el1) { trvm := true }) = .trap ∧
      reachOf (.msrEsrEl1 0) (withHcr (atLevel .el1) { tvm := true }) = .trap ∧
      ∀ i ∈ [Instr.mrsEsrEl12 0, .msrEsrEl12 3, .mrsEsrEl2 0, .msrEsrEl2 31], reachOf i (withHcr (atLevel .el1) { nv := true }) = .trap := by
  decide

theorem witness_UndefinedAccessorRaises :
    reachOf (.mrsEsrEl12 0) (atLevel .el1) = .undef ∧ syncTarget (atLevel .el1) = .el1 ∧
      reachOf (.mrsEsrEl1 0) (atLevel .el0) = .undef ∧ syncTarget (atLevel .el0) = .el1 ∧
      reachOf (.mrsEsrEl12 0) (withHcr (atLevel .el2) {}) = .undef ∧ syncTarget (withHcr (atLevel .el2) {}) = .el2 ∧
      reachOf (.mrsEsrEl12 0) (atLevel .el3) = .undef ∧ syncTarget (atLevel .el3) = .el3 ∧
      reachOf (.msrEsrEl1 0) (withHcr (atLevel .el0) { tge := true }) = .undef ∧
      syncTarget (withHcr (atLevel .el0) { tge := true }) = .el2 := by decide

theorem witness_El0LearnsNothingOfEsrEl1 : (atLevel .el0).pstateEl = .el0 := rfl

/-- Each outcome of the statement is reached: register ESR_EL1, register ESR_EL2, memory, the trap, UNDEFINED, and ESR_EL2 at EL3 without
EL2 (log 39). -/
theorem witness_OutcomesByLevel :
    reachOf (.mrsEsrEl1 0) (atLevel .el1) = .reg1 ∧
      (reachOf (.mrsEsrEl1 0) (nested true) = .mem ∧ reachOf (.mrsEsrEl2 0) (nested true) = .reg1 ∧
        reachOf (.msrEsrEl12 0) (nested true) = .trap ∧ reachOf (.msrEsrEl12 0) (nested false) = .mem) ∧
      reachOf (.mrsEsrEl1 0) (withHcr (atLevel .el1) { trvm := true }) = .trap ∧
      reachOf (.mrsEsrEl2 0) (withHcr (atLevel .el1) { nv := true }) = .trap ∧
      reachOf (.mrsEsrEl1 0) (withHcr (atLevel .el2) { e2h := true }) = .reg2 ∧
      reachOf (.msrEsrEl12 0) (withHcr (atLevel .el3) { e2h := true }) = .reg1 ∧
      reachOf (.msrEsrEl12 0) (atLevel .el2) = .undef ∧ reachOf (.mrsEsrEl1 0) (atLevel .el0) = .undef ∧
      reachOf (.mrsEsrEl2 0) { atLevel .el3 with params := { P with haveEl2 := false } } = .reg2 ∧
      reachOf (.msrEsrEl12 0) { nested true with params := { P with haveNv := false } } = .undef := by decide

theorem witness_ProgramOrderOutsideTheWindow :
    Instr.isRead (.msrEsrEl1 0) = false ∧ Instr.isRead (.mrsEsrEl2 1) = true ∧ reachOf (.msrEsrEl1 0) (nested false) = .reg1 ∧
      reachOf (.mrsEsrEl2 1) (nested false) = .reg1 ∧ inWindow (nested false) = false ∧
      ecDefined P (ecOf (readX (nested false) 0)) = true := by decide

/-- PR7's state meets the hypotheses of the three statements on the EL3 window, for both names. -/
theorem witness_CrossNameReadSeesNewOrOld :
    EsrName.esrEl1 ≠ .esrEl2 ∧ EsrName.esrEl12 ≠ .esrEl2 ∧ pr7.pstateEl = .el3 ∧ el2Enabled pr7 = true ∧ hcrE2h pr7 = true ∧ pr7.window = windowClosed ∧
      pr7.esrEl1 = .known 0x02000000 ∧ ecDefined pr7.params (ecOf (readX pr7 0)) = true ∧
      ecDefined pr7.params (ecOf 0x02000000) = true ∧ (2 : BitVec 5) ≠ 31 ∧ (3 : BitVec 5) ≠ 31 ∧ (2 : BitVec 5) ≠ 3 := by decide

theorem witness_SynchronizedReadSeesNew :
    EsrName.esrEl1 ≠ .esrEl2 ∧ EsrName.esrEl12 ≠ .esrEl2 ∧ pr7.pstateEl = .el3 ∧ el2Enabled pr7 = true ∧ hcrE2h pr7 = true ∧
      pr7.window = windowClosed ∧ ecDefined pr7.params (ecOf (readX pr7 1)) = true := by decide

theorem witness_CrossNameWritesEitherRemains :
    EsrName.esrEl1 ≠ .esrEl2 ∧ pr7.pstateEl = .el3 ∧ el2Enabled pr7 = true ∧ hcrE2h pr7 = true ∧ pr7.window = windowClosed ∧
      ecDefined pr7.params (ecOf (readX pr7 0)) = true ∧ ecDefined pr7.params (ecOf (readX pr7 1)) = true ∧
      ecDefined pr7.params (ecOf (readX pr7 2)) = true ∧ loOf (readX pr7 0) ≠ loOf (readX pr7 1) := by decide

/-- What the statements on a delivered record ask of it, at a state. -/
abbrev delivered (s : State) (r : ExceptionRecord) : Prop := recordProblem s.params r = none ∧ recordFits s r = true

theorem witness_ExceptionToEl1WritesTheSyndrome :
    delivered (atLevel .el0) (fromLower .svcA64) ∧ delivered (atLevel .el1) { fromSame .dataAbort with fsc := 0x07 } ∧
      (presented (atLevel .el0) (.exception (fromLower .svcA64))).inputs = [.exception (fromLower .svcA64)] := by decide

theorem witness_ExceptionToHigherLevelLeavesEsrEl1 :
    (presented (atLevel .el1) (.exception { fromSame .hvc with target := .el2 })).inputs =
        [.exception { fromSame .hvc with target := .el2 }] ∧
      delivered (atLevel .el1) { fromSame .hvc with target := .el2 } ∧
      delivered (atLevel .el1) { fromSame .smcA64 with target := .el3 } := by decide

theorem witness_ReservedFaultStatusIsRefused :
    (∀ c ∈ [(0x3F : BitVec 6), 0x08, 0x0C, 0x11, 0x18, 0x1F, 0x21],
      refusal (step (presented (atLevel .el1) (.exception { fromSame .instAbort with fsc := c }))) = some (.badRecord .faultStatus)) ∧
    (∀ c ∈ [(0x3D : BitVec 6), 0x3E, 0x1C],
      refusal (step (presented (atLevel .el1) (.exception { fromSame .dataAbort with fsc := c }))) = some (.badRecord .faultStatus)) ∧
    recordProblem P { fromSame .dataAbort with fsc := 0x11 } = none ∧
    recordProblem { P with haveTthm := false } { fromSame .dataAbort with fsc := 0x31 } = some .faultStatus := by decide

theorem witness_UnpredictableLeavesAPossibleSyndrome :
    delivered (atLevel .el0) { fromLower .unknownReason with unpredictableAsUndefined := true } := by decide

theorem witness_SyndromeComposition : ecOfRecord P {} (fromLower .sError) = some 0x2F := by decide

theorem witness_UnknownReasonSyndromeIsOneValue :
    ecOfRecord P {} (fromLower .unknownReason) = some 0 ∧ ecOfRecord { P with haveSve := false } {} (fromLower .sveAccess) = some 0 := by
  decide

theorem witness_ConstantSyndromes :
    ∀ c ∈ [ExcClass.illegalState, .pcAlignment, .spAlignment, .breakpoint, .softwareStep, .watchpoint],
      recordProblem P (fromLower c) = none ∧ recordProblem P (fromSame c) = none := by decide

theorem witness_SoftwareStepSyndromes : (fromSame .softwareStep).target = .el1 ∧ (fromSame .softwareStep).cls = .softwareStep := by decide

theorem witness_WatchpointSyndromes : (fromLower .watchpoint).target = .el1 ∧ (fromLower .watchpoint).cls = .watchpoint := by decide

theorem witness_CallAndBreakSyndromes :
    recordProblem P (fromLower .svcA64) = none ∧ recordProblem P (fromSame .brkA64) = none ∧
      recordProblem P (fromSame .branchTarget) = none ∧ recordProblem P (fromA32 .bkptA32) = none ∧
      recordProblem P { fromT32 .bkptA32 with instrLen := .bits16 } = none := by decide

theorem witness_AArch32SvcSyndromes :
    recordProblem P (fromA32 .svcA32) = none ∧ recordProblem P { fromT32 .svcA32 with instrLen := .bits16 } = none := by decide

theorem witness_DataAbortAtEl1 :
    ∀ c ∈ [(0b010000 : BitVec 6), 0b110101, 0b110001, 0b000111], recordProblem P { fromSame .dataAbort with fsc := c } = none := by decide

theorem witness_InstructionAbortFields :
    ∀ c ∈ [(0b010000 : BitVec 6), 0b000000, 0b110001], recordProblem P { fromLower .instAbort with fsc := c } = none := by decide

theorem witness_SystemTrapFields :
    recordProblem P { fromLower .sysTrap with rt := .view 31 } = none ∧ recordProblem P (fromA32 .mcrCp15) = none ∧
      recordProblem P { fromT32 .mcrCp14 with isVmrs := true } = none ∧ recordProblem P (fromA32 .mcrrCp15) = none ∧
      recordProblem P { fromA32 .mrrcCp14 with isRead := true } = none ∧ recordProblem P (fromA32 .ldcStc) = none ∧
      recordProblem P { fromA32 .ldcStc with literal := true, p := true, isLoad := true } = none := by decide

theorem witness_ConditionSubfields :
    layoutOfRecord P {} (fromLower .wfx) ∈ [IssLayout.wfx, .mcr, .mcrr, .ldc, .fpAcc] ∧
      layoutOfRecord P {} (fromA32 .mcrCp15) ∈ [IssLayout.wfx, .mcr, .mcrr, .ldc, .fpAcc] ∧
      layoutOfRecord { P with t32Cv := true } {} (fromT32 .fpAccess) ∈ [IssLayout.wfx, .mcr, .mcrr, .ldc, .fpAcc] := by decide

theorem witness_SErrorFields :
    ∀ b ∈ [true, false], ∀ d ∈ [(0 : BitVec 6), 0x11],
      recordProblem { P with haveRas := b } { fromSame .sError with serrDfsc := d } = none := by decide

theorem witness_FloatingPointFields :
    recordProblem P { fromA32 .fpExcA32 with fpTrapped := { overflow := true } } = none ∧
      recordProblem { P with tfvZeroOnVector := true } { fromLower .fpExcA64 with isVector := true } = none := by decide

theorem witness_IlZeroOnlyForT32 :
    recordProblem P { fromT32 .bkptA32 with instrLen := .bits16 } = none ∧
      ilOfRecord P {} { fromT32 .bkptA32 with instrLen := .bits16 } 0 = 0 := by decide

theorem witness_EcSelectsTheLayout :
    recordProblem P (fromLower .branchTarget) = none ∧ ecOfRecord P {} (fromLower .branchTarget) = some 0x0D ∧
      recordProblem P (fromSame .fpAccess) = none ∧ ecOfRecord P { tge := true } (fromSame .fpAccess) = some 0x00 := by decide

theorem witness_HardwareWritesRes0AsZero : (fromLower .wfx).cls ≠ .sError ∧ (fromLower .sError).serrImpdef = false := by decide

theorem witness_ExceptionReturnMakesUnknown :
    (presented (atLevel .el1) (.exceptionReturn .el0 8)).inputs = [.exceptionReturn .el0 8] ∧
      (presented (atLevel .el2) (.exceptionReturn .el1 8)).pstateEl ≠ .el1 := by decide

theorem witness_InterruptLeavesEsrEl1 :
    (presented (atLevel .el1) (.interrupt .el3)).inputs = [.interrupt .el3] ∧ (atLevel .el1).pstateEl.rank ≤ ExceptionLevel.el3.rank ∧
      (atLevel .el1).params.haveEl3 = true ∧ hcrTge (atLevel .el0) = false := by decide

theorem witness_DfsrWriteWritesTheLowHalf :
    (atLevel .el1).params.haveAarch32 = true ∧ (atLevel .el1).esrEl1 = .known 0x02000000 ∧
      contentRes0 (atLevel .el1).params (atLevel .el1).esrEl1 ∧ ecDefined P ((0x56000001 : BitVec 32).extractLsb' 26 6) = true :=
  ⟨rfl, rfl, fun _ => by decide, by decide⟩

/-- What a reset of the tests supplies. -/
def someReset : ResetInputs :=
  { pstateEl := .el3, pc := 0x100, x := Vector.replicate 31 7, esrEl2 := 0, esrEl3 := 0, preferredReturn := 0, env := {}, bytes := [(8, 1)] }

theorem witness_ResetMakesEsrEl1Unknown : (presented (atLevel .el1) (.reset someReset)).inputs = [.reset someReset] := rfl

/-- A step from a state of PR7 with a write noted in the window, which meets every invariant: for StepKeepsMemoryInv, StepKeepsRes0Inv
and StepKeepsReservedEcInv. -/
theorem witness_StepKeepsInvariants :
    ∃ s t, MemoryInv s ∧ Res0Inv s ∧ ReservedEcInv s ∧ s.window.order ≠ [] ∧ step s = .next t := by
  refine ⟨{ presented pr7 .contextSync with window := { before := .known 0x02000000, order := [.write .esrEl1 (.known 0x56000001)] } }, _,
    rfl, ?_, ?_, by simp, rfl⟩
  · refine ⟨fun _ => by decide, fun _ _ => by decide, ?_⟩
    intro n c hc
    obtain ⟨-, rfl⟩ : n = .esrEl1 ∧ c = .known 0x56000001 := by simpa using hc
    exact fun _ => by decide
  · refine ⟨fun _ => by decide, fun _ _ => by decide, ?_⟩
    intro n c hc
    obtain ⟨-, rfl⟩ : n = .esrEl1 ∧ c = .known 0x56000001 := by simpa using hc
    exact fun _ => by decide

theorem witness_OnlyFourAgentsChangeEsrEl1 :
    (got (step (presented (atLevel .el1) (.reset someReset))) (fun t => decide (t.esrEl1 ≠ (atLevel .el1).esrEl1))) = some true := by decide

theorem witness_StepKeepsTheParameters :
    (got (step (presented (atLevel .el1) .contextSync)) (fun _ => true)) = some true := by decide

/-- `pr7Used` with a reserved EC value in X0, under `store`. -/
def pr7Store : State := { writeX pr7Used 0 0x08000000 with params := { P with cuReservedEc := .store } }

theorem witness_AccessorsProceed :
    (reachOf (.mrsEsrEl1 1) (nested true) = .mem ∧ (nested true).env.nvReadFault = none ∧ (nested true).env.nvWriteFault = none) ∧
      (reachOf (.msrEsrEl1 0) (atLevel .el1) = .reg1 ∧ (atLevel .el1).params.cuReservedEc = .refuse ∧
        ecDefined (atLevel .el1).params (ecOf (readX (atLevel .el1) 0)) = true ∧ overtakesUse .esrEl1 0 (atLevel .el1) = false) ∧
      (reachOf (.msrEsrEl1 0) pr7Used = .reg1 ∧ ecDefined pr7Used.params (ecOf (readX pr7Used 0)) = true ∧
        overtakesUse .esrEl1 0 pr7Used = true) ∧
      (reachOf (.msrEsrEl1 0) pr7Store = .reg1 ∧ ecDefined pr7Store.params (ecOf (readX pr7Store 0)) = false ∧
        pr7Store.params.cuReservedEc = .store ∧ overtakesUse .esrEl1 0 pr7Store = true) := by decide

end Sys2Proof.Tests
end

section
/-! The parameters and the environment's inputs across a step (R8, R9, D15, R33, R228). Each operation an accessor ends in keeps both;
of the events only a change of the environment and a reset set the inputs, and none sets the parameters. -/

namespace Sys2Proof.Machine

/-- `t` stands under the same implementation parameters and the same environment inputs as `s`. -/
def SameSetting (s t : State) : Prop := t.params = s.params ∧ t.env = s.env

theorem undefinedAccess_sameSetting (s : State) : SameSetting s (undefinedAccess s) :=
  ⟨raiseHere_params _ s, raiseHere_env _ s⟩

theorem systemAccessTrap_sameSetting (n : EsrName) (isRead : Bool) (rt : BitVec 5) (s : State) :
    SameSetting s (systemAccessTrap n isRead rt s) :=
  ⟨raiseHere_params _ s, raiseHere_env _ s⟩

theorem writeEsrEl1_sameSetting {n : EsrName} {rt : BitVec 5} {s t : State} (h : writeEsrEl1 n rt s = .next t) :
    SameSetting s t := by
  rcases writeEsrEl1_cases n rt s with ⟨c, -, -, he⟩ | ⟨-, he⟩ | ⟨-, -, he⟩
  · obtain rfl : complete (storeEsrEl1 n rt c s) = t := by simpa [he] using h
    simp [SameSetting]
  · simp [he] at h
  · simp [he] at h

theorem nvFault_sameSetting {r : ExceptionRecord} {isWrite : Bool} {s t : State} (h : nvFault r isWrite s = .next t) :
    SameSetting s t := by
  rcases nvFault_cases r isWrite s with ⟨-, he⟩ | ⟨q, -, he⟩
  · obtain rfl : raiseHere (nvFaultRecord r isWrite s) s = t := by simpa [he] using h
    exact ⟨raiseHere_params _ s, raiseHere_env _ s⟩
  · simp [he] at h

theorem readNvMem_sameSetting {rt : BitVec 5} {s t : State} (h : readNvMem rt s = .next t) : SameSetting s t := by
  rcases readNvMem_cases rt s with ⟨-, -, he⟩ | ⟨-, r, -, he⟩ | ⟨-, he⟩
  · obtain rfl : completeRead rt _ s = t := by simpa [he] using h
    exact ⟨completeRead_params rt _ s, completeRead_env rt _ s⟩
  · exact nvFault_sameSetting (he ▸ h)
  · simp [he] at h

theorem writeNvMem_sameSetting {rt : BitVec 5} {s t : State} (h : writeNvMem rt s = .next t) : SameSetting s t := by
  rcases writeNvMem_cases rt s with ⟨-, -, he⟩ | ⟨-, r, -, he⟩ | ⟨-, he⟩
  · obtain rfl : completeWrite rt _ = t := by simpa [he] using h
    simp [SameSetting]
  · exact nvFault_sameSetting (he ▸ h)
  · simp [he] at h

/-- An accessor changes neither the parameters nor the environment's inputs, whichever outcome it has. -/
theorem exec_sameSetting {i : Instr} {s t : State} (h : exec i s = .next t) : SameSetting s t := by
  rcases exec_cases h with rfl | ⟨-, -, rfl⟩ | ⟨-, -, rfl⟩ | ⟨-, -, hw⟩ | ⟨-, rfl⟩ | ⟨-, rfl⟩ | ⟨-, -, -, hr⟩ | ⟨-, -, -, hw⟩
  · exact undefinedAccess_sameSetting s
  · exact systemAccessTrap_sameSetting i.name i.isRead i.rt s
  · exact ⟨readEsrEl1_params i.name i.rt s, readEsrEl1_env i.name i.rt s⟩
  · exact writeEsrEl1_sameSetting hw
  · exact ⟨readEsrEl2_params i.rt s, readEsrEl2_env i.rt s⟩
  · exact ⟨writeEsrEl2_params i.rt s, writeEsrEl2_env i.rt s⟩
  · exact readNvMem_sameSetting hr
  · exact writeNvMem_sameSetting hw

theorem pcAlignmentFault_sameSetting (s : State) : SameSetting s (pcAlignmentFault s) :=
  ⟨enterException_params _ s, enterException_env _ s⟩

/-- A step changes neither the parameters nor the environment's inputs, except that a change of the environment and a reset bring
inputs of their own. -/
theorem step_setting_cases {s t : State} (h : step s = .next t) :
    SameSetting s t ∨ (∃ e rest, s.inputs = .environment e :: rest ∧ t.params = s.params ∧ t.env = e) ∨
      (∃ r rest, s.inputs = .reset r :: rest ∧ t.params = s.params ∧ t.env = r.env) := by
  rcases step_cases h with ⟨w, rest, i, -, -, -, he⟩ | ⟨w, rest, -, -, rfl⟩ | ⟨r, rest, -, -, -, rfl⟩ | ⟨l, rest, -, rfl⟩ |
    ⟨l, a, rest, -, rfl⟩ | ⟨rest, -, rfl⟩ | ⟨v, rest, c, -, -, -, rfl⟩ | ⟨e, rest, hin, rfl⟩ | ⟨e, rest, -, rfl⟩ |
    ⟨r, rest, hin, rfl⟩
  · have executed : SameSetting { s with inputs := rest } t := exec_sameSetting he
    exact .inl executed
  · exact .inl (pcAlignmentFault_sameSetting { s with inputs := rest })
  · exact .inl ⟨enterException_params r _, enterException_env r _⟩
  · exact .inl ⟨enterLevel_params l _, enterLevel_env l _⟩
  · exact .inl ⟨exceptionReturn_params l a _, exceptionReturn_env l a _⟩
  · exact .inl ⟨contextSync_params _, contextSync_env _⟩
  · exact .inl ⟨rfl, rfl⟩
  · exact .inr (.inl ⟨e, rest, hin, setEnvironment_params e _, setEnvironment_env e _⟩)
  · exact .inl ⟨applyOther_params e _, applyOther_env e _⟩
  · exact .inr (.inr ⟨r, rest, hin, applyReset_params r _, applyReset_env r _⟩)

/-- Settles O57, by what a step can do to the parameters and the inputs. -/
theorem stepKeepsTheParameters : Obligations.StepKeepsTheParameters := by
  intro s t h
  rcases step_setting_cases h with ⟨hparams, henv⟩ | ⟨e, rest, hin, hparams, -⟩ | ⟨r, rest, hin, hparams, -⟩
  · exact ⟨hparams, fun _ _ => henv⟩
  · exact ⟨hparams, fun noEnvironment _ => absurd hin (noEnvironment e rest)⟩
  · exact ⟨hparams, fun _ noReset => absurd hin (noReset r rest)⟩

end Sys2Proof.Machine
end

section
/-! The accessors by what they reach (R176): the pseudocode of R170 to R175 gathered into one table. -/

namespace Sys2Proof.Machine

/-- What an accessor does once the decision table has said what it reaches. -/
def outcomeOf (reach : Reach) (i : Instr) (s : State) : Result :=
  match reach with
  | .reg1 => if i.isRead then .next (readEsrEl1 i.name i.rt s) else writeEsrEl1 i.name i.rt s
  | .reg2 => if i.isRead then .next (readEsrEl2 i.rt s) else .next (writeEsrEl2 i.rt s)
  | .mem => if i.isRead then readNvMem i.rt s else writeNvMem i.rt s
  | .trap => .next (systemAccessTrap i.name i.isRead i.rt s)
  | .undef => .next (undefinedAccess s)

/-- Each accessor does what the decision table of R176 says, level by level. -/
theorem exec_eq_outcomeOf (i : Instr) (s : State) : exec i s = outcomeOf (reachOf i s) i s := by
  cases i with
  | mrsEsrEl1 rt | msrEsrEl1 rt =>
    cases hel : s.pstateEl <;>
      simp [exec, execMrsEsrEl1, execMsrEsrEl1, reachOf, reachEsrEl1, Instr.name, Instr.isRead, hel, Bool.and_assoc,
        apply_ite outcomeOf, ite_apply] <;>
      simp [outcomeOf, Instr.name, Instr.isRead, Instr.rt]
  | mrsEsrEl12 rt | msrEsrEl12 rt =>
    cases hel : s.pstateEl <;>
      simp [exec, execMrsEsrEl12, execMsrEsrEl12, reachOf, reachEsrEl12, Instr.name, hel, Bool.and_assoc,
        apply_ite outcomeOf, ite_apply] <;>
      simp [outcomeOf, Instr.name, Instr.isRead, Instr.rt]
  | mrsEsrEl2 rt | msrEsrEl2 rt =>
    cases hel : s.pstateEl <;>
      simp [exec, execMrsEsrEl2, execMsrEsrEl2, reachOf, reachEsrEl2, Instr.name, hel, Bool.and_assoc,
        apply_ite outcomeOf, ite_apply] <;>
      simp [outcomeOf, Instr.name, Instr.isRead, Instr.rt]

end Sys2Proof.Machine
end

section
/-! Reads and writes of register ESR_EL1 that nothing leaves unordered (R49, R160 to R162, R213). -/

namespace Sys2Proof.Machine

/-- Level, parameters and the environment's inputs decide what an accessor reaches. -/
theorem reachOf_congr {s t : State} (i : Instr) (hel : t.pstateEl = s.pstateEl) (henv : SameSetting s t) :
    reachOf i t = reachOf i s := by
  obtain ⟨hparams, henv⟩ := henv
  cases s
  cases t
  cases hel
  cases hparams
  cases henv
  rfl

theorem inWindow_congr {s t : State} (hel : t.pstateEl = s.pstateEl) (henv : SameSetting s t) : inWindow t = inWindow s := by
  simp [inWindow, hcrE2h, hel, henv.2]

theorem toNat_lt_31_iff (t : BitVec 5) : t.toNat < 31 ↔ t ≠ 31 := by
  rw [Ne, ← BitVec.toNat_inj, show (31 : BitVec 5).toNat = 31 from rfl]
  omega

theorem storedBits_stores (p : Params) (v : Word) : Stores p v (storedBits p v) :=
  ⟨loOf_storedBits p v, hiOf_storedBits p v⟩

theorem contentWritten_of_store {p : Params} (h : p.cuReservedEc = .store) (v : Word) :
    contentWritten p v = some (.known (storedBits p v)) := by
  simp [contentWritten, h]

theorem contentWritten_of_unknown {p : Params} {v : Word} (hec : ecDefined p (ecOf v) = false) (h : p.cuReservedEc = .unknown) :
    contentWritten p v = some .unknown := by
  simp [contentWritten, hec, h]

/-! ### Reading register ESR_EL1 -/

/-- What a read of register ESR_EL1 leaves: ESR_EL2, the memory, and all that a completed accessor keeps (R160). -/
theorem readEsrEl1_frame (n : EsrName) (rt : BitVec 5) (s : State) :
    (readEsrEl1 n rt s).esrEl2 = s.esrEl2 ∧ SameMemory s (readEsrEl1 n rt s) ∧ Completed s (readEsrEl1 n rt s) := by
  simp [SameMemory, Completed, SameEnvironment]

/-- A read that nothing leaves unordered fills its register from the register's content (R161); number 31 discards it (R34). -/
theorem readX_readEsrEl1_ordered {n : EsrName} {s : State} (rt : BitVec 5) (h : readRaces n s = false) :
    readX (readEsrEl1 n rt s) rt = if rt = 31 then 0 else valueOf s s.esrEl1 := by
  rw [readX_readEsrEl1_same, contentSeen_ordered h]
  simp only [toNat_lt_31_iff, ne_eq, ite_not]

theorem exec_eq_readEsrEl1 {i : Instr} {s : State} (hr : i.isRead = true) (h : reachOf i s = .reg1) :
    exec i s = .next (readEsrEl1 i.name i.rt s) := by
  simp [exec_eq_outcomeOf, h, outcomeOf, hr]

theorem exec_eq_writeEsrEl1 {i : Instr} {s : State} (hw : i.isRead = false) (h : reachOf i s = .reg1) :
    exec i s = writeEsrEl1 i.name i.rt s := by
  simp [exec_eq_outcomeOf, h, outcomeOf, hw]

/-- Settles O8: the read sees the register's content because nothing is unordered against it. -/
theorem mrsReadsEsrEl1 : Obligations.MrsReadsEsrEl1 := by
  intro i s v hread hreach hrace hv
  refine ⟨_, exec_eq_readEsrEl1 hread hreach, ?_, fun r hr => readX_readEsrEl1_other i.name s hr, readEsrEl1_esrEl1 ..,
    readEsrEl1_frame ..⟩
  rw [readX_readEsrEl1_ordered i.rt hrace, hv, valueOf]

/-- Settles O9: the value read is a draw, cut as the register's stored bits are. -/
theorem mrsOfUnknownCompletes : Obligations.MrsOfUnknownCompletes := by
  intro i s hread hreach hrace hv
  refine ⟨_, exec_eq_readEsrEl1 hread hreach, fun hres0 => ?_, fun r hr => readX_readEsrEl1_other i.name s hr,
    (readEsrEl1_esrEl1 ..).trans hv, readEsrEl1_frame ..⟩
  rw [readX_readEsrEl1_ordered i.rt hrace, hv, valueOf]
  split
  · rfl
  · simp [hiOf_storedBits, hres0]

/-! ### Writing register ESR_EL1 -/

/-- What a write of register ESR_EL1 leaves: ESR_EL2, the memory, and all that a completed accessor keeps (R160). -/
theorem storeEsrEl1_frame (n : EsrName) (rt : BitVec 5) (c : EsrContent) (s : State) :
    (complete (storeEsrEl1 n rt c s)).esrEl2 = s.esrEl2 ∧ SameMemory s (complete (storeEsrEl1 n rt c s)) ∧
      Completed s (complete (storeEsrEl1 n rt c s)) := by
  simp [SameMemory, Completed, SameEnvironment]

/-- A write that nothing leaves unordered stores the content its value gives, and changes no general-purpose register. -/
theorem exec_writes_ordered {i : Instr} {s : State} {c : EsrContent} (hw : i.isRead = false) (hreach : reachOf i s = .reg1)
    (hrace : writeRaces i.name i.rt s = false) (hc : contentWritten s.params (readX s i.rt) = some c) :
    ∃ t, exec i s = .next t ∧ t.esrEl1 = c ∧ SameRegisters s t ∧ t.esrEl2 = s.esrEl2 ∧ SameMemory s t ∧ Completed s t := by
  obtain ⟨hstored, hx⟩ := storeEsrEl1_ordered (c := c) hrace
  refine ⟨complete (storeEsrEl1 i.name i.rt c s), ?_, hstored, fun r => readX_congr hx r, storeEsrEl1_frame ..⟩
  simp [exec_eq_writeEsrEl1 hw hreach, writeEsrEl1, hc, overtakesUse_of_not_writeRaces hrace]

/-- Settles O10: a defined EC gives the stored bits of the value. -/
theorem msrWritesEsrEl1 : Obligations.MsrWritesEsrEl1 := by
  intro i s hwrite hreach hec hrace
  obtain ⟨t, hexec, hesr, hframe⟩ := exec_writes_ordered hwrite hreach hrace (contentWritten_defined hec)
  exact ⟨t, _, hexec, hesr, storedBits_stores .., hframe⟩

/-- Settles O11: the three values of CU_RESERVED_EC, one case of `contentWritten` each. -/
theorem msrOfReservedEc : Obligations.MsrOfReservedEc := by
  intro i s hwrite hreach hec hrace
  refine ⟨fun hrefuse => ?_, fun hstore => ?_, fun hunknown => ?_⟩
  · rw [exec_eq_writeEsrEl1 hwrite hreach, writeEsrEl1, contentWritten_eq_none.mpr ⟨hec, hrefuse⟩]
  · obtain ⟨t, hexec, hesr, hframe⟩ := exec_writes_ordered hwrite hreach hrace (contentWritten_of_store hstore _)
    exact ⟨t, _, hexec, hesr, storedBits_stores .., hframe⟩
  · exact exec_writes_ordered hwrite hreach hrace (contentWritten_of_unknown hec hunknown)

/-- Settles O23: outside the window neither access races, so the read gets what the write stored. -/
theorem programOrderOutsideTheWindow : Obligations.ProgramOrderOutsideTheWindow := by
  intro i j s hwrite hread hreachI hreachJ hwin hec
  obtain ⟨t, w, hexec, hesr, hstores, -, -, -, hdone⟩ :=
    msrWritesEsrEl1 i s hwrite hreachI hec (writeRaces_of_not_inWindow hwin)
  obtain ⟨-, hel, -, -, hparams, henv, -⟩ := hdone
  have hreach : reachOf j t = .reg1 := (reachOf_congr j hel ⟨hparams, henv⟩).trans hreachJ
  have hrace : readRaces j.name t = false :=
    readRaces_of_not_inWindow ((inWindow_congr hel ⟨hparams, henv⟩).trans hwin)
  obtain ⟨u, hexecJ, hvalue, -⟩ := mrsReadsEsrEl1 j t w hread hreach hrace hesr
  refine ⟨t, u, hexec, hexecJ, fun h31 => ?_⟩
  rwa [hvalue, if_neg h31]

end Sys2Proof.Machine
end

section
/-! Where each level gets by which name (R176): the decision table read level by level. -/

namespace Sys2Proof.Machine

/-- The trap bit of the ESR_EL1 name: TRVM of a read, TVM of a write (R170, R171). -/
def trapBit (i : Instr) (s : State) : Bool := if i.isRead then hcrTrvm s else hcrTvm s

theorem reachOf_el0 {s : State} (i : Instr) (hel : s.pstateEl = .el0) : reachOf i s = .undef := by
  cases hn : i.name <;> simp [reachOf, reachEsrEl1, reachEsrEl12, reachEsrEl2, hn, hel]

/-- At EL1 the ESR_EL1 name is trapped, else goes to memory, else reaches the register. -/
theorem reachOf_esrEl1_el1 {i : Instr} {s : State} (hel : s.pstateEl = .el1) (hn : i.name = .esrEl1) :
    reachOf i s =
      if el2Enabled s = true ∧ el2UsesAArch32 s = false ∧ trapBit i s = true then .trap
      else if el2Enabled s = true ∧ el2UsesAArch32 s = false ∧ hcrNv2 s = true ∧ hcrNv1 s = true ∧ hcrNv s = true then .mem
      else .reg1 := by
  simp [reachOf, reachEsrEl1, trapBit, hn, hel, and_assoc]

/-- At EL1 the ESR_EL12 name goes to memory, else is trapped, else is UNDEFINED. -/
theorem reachOf_esrEl12_el1 {i : Instr} {s : State} (hel : s.pstateEl = .el1) (hn : i.name = .esrEl12) :
    reachOf i s =
      if el2Enabled s = true ∧ hcrNv2 s = true ∧ hcrNv1 s = false ∧ hcrNv s = true then .mem
      else if el2Enabled s = true ∧ hcrNv s = true then .trap
      else .undef := by
  simp [reachOf, reachEsrEl12, hn, hel, and_assoc]

/-- At EL1 the ESR_EL2 name reaches register ESR_EL1, else is trapped, else is UNDEFINED. -/
theorem reachOf_esrEl2_el1 {i : Instr} {s : State} (hel : s.pstateEl = .el1) (hn : i.name = .esrEl2) :
    reachOf i s =
      if el2Enabled s = true ∧ hcrNv2 s = true ∧ hcrNv s = true then .reg1
      else if el2Enabled s = true ∧ hcrNv s = true then .trap
      else .undef := by
  simp [reachOf, reachEsrEl2, hn, hel, and_assoc]

theorem reachOf_esrEl1_el2 {i : Instr} {s : State} (hel : s.pstateEl = .el2) (hn : i.name = .esrEl1) :
    reachOf i s = if hcrE2h s = true then .reg2 else .reg1 := by
  simp [reachOf, reachEsrEl1, hn, hel]

theorem reachOf_esrEl1_el3 {i : Instr} {s : State} (hel : s.pstateEl = .el3) (hn : i.name = .esrEl1) : reachOf i s = .reg1 := by
  simp [reachOf, reachEsrEl1, hn, hel]

/-- At EL2 and EL3 the ESR_EL12 name reaches register ESR_EL1 under E2H alone. -/
theorem reachOf_esrEl12_above {i : Instr} {s : State} (hel : s.pstateEl = .el2 ∨ s.pstateEl = .el3) (hn : i.name = .esrEl12) :
    reachOf i s = if el2Enabled s = true ∧ hcrE2h s = true then .reg1 else .undef := by
  rcases hel with hel | hel <;> simp [reachOf, reachEsrEl12, hn, hel]

theorem reachOf_esrEl2_above {i : Instr} {s : State} (hel : s.pstateEl = .el2 ∨ s.pstateEl = .el3) (hn : i.name = .esrEl2) :
    reachOf i s = .reg2 := by
  rcases hel with hel | hel <;> simp [reachOf, reachEsrEl2, hn, hel]

/-- Memory and the trap are reached from EL1 alone, with EL2 enabled and, for memory, both nested virtualization bits. -/
theorem reachOf_mem_or_trap {i : Instr} {s : State} (h : reachOf i s = .mem ∨ reachOf i s = .trap) :
    s.pstateEl = .el1 ∧ el2Enabled s = true ∧ (reachOf i s = .mem → hcrNv s = true ∧ hcrNv2 s = true) := by
  cases hel : s.pstateEl with
  | el0 => simp [reachOf_el0 i hel] at h
  | el1 =>
    cases hn : i.name with
    | esrEl1 => rw [reachOf_esrEl1_el1 hel hn] at h ⊢; split_ifs at h ⊢ <;> simp_all
    | esrEl12 => rw [reachOf_esrEl12_el1 hel hn] at h ⊢; split_ifs at h ⊢ <;> simp_all
    | esrEl2 => rw [reachOf_esrEl2_el1 hel hn] at h ⊢; split_ifs at h ⊢ <;> simp_all
  | el2 =>
    cases hn : i.name with
    | esrEl1 => rw [reachOf_esrEl1_el2 hel hn] at h; split_ifs at h <;> simp at h
    | esrEl12 => rw [reachOf_esrEl12_above (.inl hel) hn] at h; split_ifs at h <;> simp at h
    | esrEl2 => simp [reachOf_esrEl2_above (.inl hel) hn] at h
  | el3 =>
    cases hn : i.name with
    | esrEl1 => simp [reachOf_esrEl1_el3 hel hn] at h
    | esrEl12 => rw [reachOf_esrEl12_above (.inr hel) hn] at h; split_ifs at h <;> simp at h
    | esrEl2 => simp [reachOf_esrEl2_above (.inr hel) hn] at h

/-- Without EL2 it is not enabled (D3). -/
theorem el2Enabled_of_not_haveEl2 {s : State} (h : s.params.haveEl2 = false) : el2Enabled s = false := by
  simp [el2Enabled, h]

/-- HCR_EL2.NV is 0 without ARMv8.3-NV (R35). -/
theorem hcrNv_of_not_haveNv {s : State} (h : s.params.haveNv = false) : hcrNv s = false := by
  simp [hcrNv, h]

/-- HCR_EL2.NV2 is 0 without ARMv8.4-NV (R35). -/
theorem hcrNv2_of_not_haveNv2 {s : State} (h : s.params.haveNv2 = false) : hcrNv2 s = false := by
  simp [hcrNv2, h]

theorem reachOf_esrEl12_without_el2 {i : Instr} {s : State} (h : s.params.haveEl2 = false) (hn : i.name = .esrEl12) :
    reachOf i s = .undef := by
  have hen := el2Enabled_of_not_haveEl2 h
  cases hel : s.pstateEl with
  | el0 => exact reachOf_el0 i hel
  | el1 => simp [reachOf_esrEl12_el1 hel hn, hen]
  | el2 => simp [reachOf_esrEl12_above (.inl hel) hn, hen]
  | el3 => simp [reachOf_esrEl12_above (.inr hel) hn, hen]

/-- Settles O22, row by row of the table. -/
theorem outcomesByLevel : Obligations.OutcomesByLevel := by
  intro i s
  refine ⟨reachOf_el0 i, fun hel hn => ?_, fun hel hn => ?_, fun hel hn => ?_, fun hel hn => ?_, reachOf_esrEl1_el3,
    fun hel hn => ?_, reachOf_esrEl2_above, fun h => ?_, fun h2 hn hel => ?_, reachOf_esrEl12_without_el2,
    fun hnv hel hn => ?_, fun hnv hmem => ?_, fun hnv2 hmem => ?_⟩
  · rw [reachOf_esrEl1_el1 hel hn, ← trapBit]
    split_ifs <;> simp_all
  · rw [reachOf_esrEl12_el1 hel hn]
    split_ifs <;> simp_all
  · rw [reachOf_esrEl2_el1 hel hn]
    split_ifs <;> simp_all
  · rw [reachOf_esrEl1_el2 hel hn]
    split_ifs <;> simp_all
  · rw [reachOf_esrEl12_above hel hn]
    split_ifs <;> simp_all
  · obtain ⟨hel, hen, -⟩ := reachOf_mem_or_trap h
    exact ⟨hel, hen⟩
  · rcases hel with hel | hel
    · simp [reachOf_esrEl1_el1 hel hn, el2Enabled_of_not_haveEl2 h2]
    · exact reachOf_esrEl1_el3 hel hn
  · rcases hn with hn | hn
    · simp [reachOf_esrEl12_el1 hel hn, hcrNv_of_not_haveNv hnv]
    · simp [reachOf_esrEl2_el1 hel hn, hcrNv_of_not_haveNv hnv]
  · obtain ⟨-, -, hbits⟩ := reachOf_mem_or_trap (.inl hmem)
    simpa [hcrNv_of_not_haveNv hnv] using hbits hmem
  · obtain ⟨-, -, hbits⟩ := reachOf_mem_or_trap (.inl hmem)
    simpa [hcrNv2_of_not_haveNv2 hnv2] using hbits hmem

end Sys2Proof.Machine
end

section
/-! Two writes of register ESR_EL1 by different names at EL3 with E2H (R47, R235): what the window holds after each, and which of them
remains. -/

namespace Sys2Proof.Machine

theorem otherName_ne (n : EsrName) : otherName n ≠ n := by
  cases n <;> simp [otherName]

theorem otherName_ne_esrEl2 (n : EsrName) : otherName n ≠ .esrEl2 := by
  cases n <;> simp [otherName]

@[simp] theorem accessor_name (b : Bool) (n : EsrName) (rt : BitVec 5) : (accessor b n rt).name = n := by
  cases n <;> cases b <;> rfl

@[simp] theorem accessor_isRead (b : Bool) (n : EsrName) (rt : BitVec 5) : (accessor b n rt).isRead = b := by
  cases n <;> cases b <;> rfl

@[simp] theorem accessor_rt (b : Bool) (n : EsrName) (rt : BitVec 5) : (accessor b n rt).rt = rt := by
  cases n <;> cases b <;> rfl

/-- The condition of R47: EL3, with EL2 enabled and HCR_EL2.E2H 1, so that two names reach register ESR_EL1. -/
def TwoNamesAtEl3 (s : State) : Prop := s.pstateEl = .el3 ∧ el2Enabled s = true ∧ hcrE2h s = true

theorem TwoNamesAtEl3.inWindow {s : State} (h : TwoNamesAtEl3 s) : inWindow s = true := by
  obtain ⟨hel, -, he2h⟩ := h
  simp [Machine.inWindow, hel, he2h]

theorem TwoNamesAtEl3.reachOf {s : State} (h : TwoNamesAtEl3 s) {n : EsrName} (hn : n ≠ .esrEl2) (b : Bool) (rt : BitVec 5) :
    reachOf (accessor b n rt) s = .reg1 := by
  obtain ⟨hel, hen, he2h⟩ := h
  cases n with
  | esrEl1 => exact reachOf_esrEl1_el3 hel (accessor_name ..)
  | esrEl12 => rw [reachOf_esrEl12_above (.inr hel) (accessor_name ..), if_pos ⟨hen, he2h⟩]
  | esrEl2 => exact absurd rfl hn

theorem TwoNamesAtEl3.congr {s t : State} (h : TwoNamesAtEl3 s) (hel : t.pstateEl = s.pstateEl) (henv : SameSetting s t) :
    TwoNamesAtEl3 t := by
  obtain ⟨hparams, henv⟩ := henv
  simpa [TwoNamesAtEl3, el2Enabled, hcrE2h, hel, hparams, henv] using h

/-- A list of writes holds no read to revise. -/
theorem reviseReads_of_writes {c : EsrContent} {l : List WindowAccess} (h : ∀ a ∈ l, a.isWrite = true) (s : State) :
    reviseReads c l s = s := by
  cases l with
  | nil => rfl
  | cons a rest =>
    cases a with
    | write n d => rfl
    | read n rt holds used => exact absurd (h _ List.mem_cons_self) (by simp [WindowAccess.isWrite])

/-- The window holds writes alone, no read. -/
def OnlyWrites (w : El3Window) : Prop := ∀ a ∈ w.order, a.isWrite = true

/-- A write against a window of writes is refused for no use, changes no general-purpose register, and joins the window behind those it
took effect before. -/
theorem exec_write_onlyWrites {s : State} (h3 : TwoNamesAtEl3 s) {n : EsrName} (hn : n ≠ .esrEl2) (rt : BitVec 5)
    (hw : OnlyWrites s.window) (hec : ecDefined s.params (ecOf (readX s rt)) = true) :
    ∃ t k, exec (accessor false n rt) s = .next t ∧ k ≤ (overtakable n (some rt) s.window).length ∧
      t.esrEl1 = newestContent (.known (storedBits s.params (readX s rt))) (s.window.order.take k) ∧
      t.window.order = insertBehind k (.write n (.known (storedBits s.params (readX s rt)))) s.window.order ∧
      SameRegisters s t ∧ Completed s t := by
  have marked : (useRegister rt (windowNow s)).order = s.window.order := by
    rw [useRegister, windowNow_order]
    refine (List.map_congr_left fun a ha => ?_).trans (List.map_id _)
    cases a with
    | write m c => rfl
    | read m r holds used => exact absurd (hw _ ha) (by simp [WindowAccess.isWrite])
  have unused : overtakesUse n rt s = false := by
    rw [overtakesUse, List.any_eq_false.mpr, Bool.and_false]
    intro a ha
    have := hw a (List.takeWhile_subset _ ha)
    cases a <;> simp_all [WindowAccess.isWrite, WindowAccess.isUsed]
  obtain ⟨-, -, hdone⟩ := storeEsrEl1_frame n rt (.known (storedBits s.params (readX s rt))) s
  refine ⟨complete (storeEsrEl1 n rt (.known (storedBits s.params (readX s rt))) s), overtaken n (some rt) s, ?_,
    overtaken_le .., rfl, ?_, fun r => readX_congr ?_ r, hdone⟩
  · rw [exec_eq_writeEsrEl1 (accessor_isRead ..) (h3.reachOf hn false rt)]
    simp [writeEsrEl1, contentWritten_defined hec, unused]
  · simp [windowAfterWrite, h3.inWindow, marked]
  · rw [complete_x, storeEsrEl1_x, reviseReads_of_writes]
    exact fun a ha => hw a (List.mem_of_mem_take (List.mem_reverse.mp ha))

/-- Settles O26: the second write finds the first in the window and takes effect before it or after it; the third may pass the first's
write alone, and only where the second did. -/
theorem crossNameWritesEitherRemains : Obligations.CrossNameWritesEitherRemains := by
  intro n a b c s hn hel hen he2h hclosed hecA hecB hecC
  have h3 : TwoNamesAtEl3 s := ⟨hel, hen, he2h⟩
  have hm := otherName_ne_esrEl2 n
  have storesOf := fun rt => storedBits_stores s.params (readX s rt)
  obtain ⟨t, k₀, hexec, -, -, horder, hregs, hpc, helT, -, -, hparams, henv, -⟩ :=
    exec_write_onlyWrites h3 hn a (by simp [OnlyWrites, hclosed, windowClosed]) hecA
  replace horder : t.window.order = [.write n (.known (storedBits s.params (readX s a)))] := by
    simp [horder, hclosed, windowClosed, insertBehind]
  have h3t := h3.congr helT ⟨hparams, henv⟩
  obtain ⟨u, k, hexecU, hk, hesrU, horderU, hregsU, hpcU, helU, -, -, hparamsU, henvU, -⟩ :=
    exec_write_onlyWrites h3t hm b (by simp [OnlyWrites, horder, WindowAccess.isWrite]) (by rw [hparams, hregs]; exact hecB)
  have h3u := h3t.congr helU ⟨hparamsU, henvU⟩
  have regs : SameRegisters s u := fun r => (hregsU r).trans (hregs r)
  rw [horder, hparams, hregs] at hesrU horderU
  have onlyWritesU : OnlyWrites u.window := by
    simp [OnlyWrites, horderU, mem_insertBehind, WindowAccess.isWrite]
  obtain ⟨u', k', hexecU', hk', hesrU', -⟩ :=
    exec_write_onlyWrites h3u hm c onlyWritesU (by rw [hparamsU, hparams, regs]; exact hecC)
  rw [horderU, hparamsU, hparams, regs] at hesrU'
  have hpc8 : u.pc = s.pc + 8 := by rw [hpcU, hpc, BitVec.add_assoc]; rfl
  have hk1 : k ≤ 1 := by
    refine hk.trans ((List.takeWhile_prefix _).length_le.trans ?_)
    simp [horder]
  obtain rfl | rfl := Nat.le_one_iff_eq_zero_or_eq_one.mp hk1
  · have hk0 : k' = 0 := by
      simpa [overtakable, horderU, insertBehind, WindowAccess.byName] using hk'
    subst hk0
    exact ⟨t, u, u', _, _, hexec, hexecU, hesrU, .inr (storesOf b), regs, hpc8, hexecU', hesrU', .inr (storesOf c),
      fun _ _ => storesOf c⟩
  · have hk1' : k' ≤ 1 := by
      simpa [overtakable, horderU, insertBehind, WindowAccess.byName, WindowAccess.feeds, (otherName_ne n).symm] using hk'
    have stays : ¬¬Stores s.params (readX s a) (storedBits s.params (readX s a)) := not_not_intro (storesOf a)
    obtain rfl | rfl := Nat.le_one_iff_eq_zero_or_eq_one.mp hk1'
    · exact ⟨t, u, u', _, _, hexec, hexecU, hesrU, .inl (storesOf a), regs, hpc8, hexecU', hesrU', .inr (storesOf c),
        fun _ h => absurd h stays⟩
    · exact ⟨t, u, u', _, _, hexec, hexecU, hesrU, .inl (storesOf a), regs, hpc8, hexecU', hesrU', .inl (storesOf a),
        fun _ h => absurd h stays⟩

end Sys2Proof.Machine
end

section
/-! What the contents of ESR_EL1, in the register and in the EL3 window, can come from across a step; the invariant of RES0 (R19). -/

namespace Sys2Proof.Machine

/-- A content that a step from `s` can bring into ESR_EL1: UNKNOWN, what a software write gives, or the syndrome of a record the model
takes to EL1, drawn in some state under the same parameters (R25). -/
def NewContent (s : State) (c : EsrContent) : Prop :=
  c = .unknown ∨ (∃ v, contentWritten s.params v = some c) ∨
    ∃ s' r, s'.params = s.params ∧ recordProblem s.params r = none ∧ r.target = .el1 ∧ c = .known (esrEl1Entry s' r)

/-- Bits [63:32] of what an exception writes are zero (R19, R26). -/
@[simp] theorem hiOf_esrEl1Entry (s : State) (r : ExceptionRecord) : hiOf (esrEl1Entry s r) = 0 := by
  simp [esrEl1Entry]

/-- The classes whose rules read no field of the record pass every check when taken to EL1 from EL0 or EL1. -/
theorem recordProblem_dataless (p : Params) {r : ExceptionRecord} (hcls : r.cls = .unknownReason ∨ r.cls = .pcAlignment)
    (htarget : r.target = .el1) (hfrom : r.fromEl.rank ≤ ExceptionLevel.el1.rank) : recordProblem p r = none := by
  have levels : targetOk p r = true := by
    simpa [targetOk, htarget] using hfrom
  rcases hcls with hcls | hcls <;>
    simp [recordProblem, levels, classDefined, classTargetOk, execStateOk, aarch32Class, aarch64Class, readsInstruction, wfxLevelOk,
      registersOk, directionOk, faultStatusOk, setOk, sErrorOk, addressingOk, fpFlagsOk, hcls]

/-- A synchronous exception is taken to EL1 from EL0 and EL1 alone. -/
theorem rank_le_of_syncTarget_el1 {s : State} (h : syncTarget s = .el1) : s.pstateEl.rank ≤ ExceptionLevel.el1.rank := by
  cases hel : s.pstateEl <;> simp [syncTarget, hel, ExceptionLevel.rank] at h ⊢

theorem recordProblem_plainRecord {cls : ExcClass} (hcls : cls = .unknownReason ∨ cls = .pcAlignment) {s : State}
    (h : syncTarget s = .el1) : recordProblem s.params (plainRecord cls s) = none :=
  recordProblem_dataless s.params hcls h (rank_le_of_syncTarget_el1 h)

/-- An exception that is not taken to EL1 leaves ESR_EL1 (R179). -/
theorem enterException_esrEl1_of_ne {r : ExceptionRecord} (s : State) (h : r.target ≠ .el1) :
    (enterException r s).esrEl1 = s.esrEl1 := by
  cases ht : r.target <;> simp_all [enterException, recordSyndrome]

/-! ### The next state of the operations that can be refused -/

theorem writeEsrEl1_next {n : EsrName} {rt : BitVec 5} {s t : State} (h : writeEsrEl1 n rt s = .next t) :
    ∃ c, contentWritten s.params (readX s rt) = some c ∧ t = complete (storeEsrEl1 n rt c s) := by
  rcases writeEsrEl1_cases n rt s with ⟨c, hc, -, he⟩ | ⟨-, he⟩ | ⟨-, -, he⟩ <;> rw [he] at h <;> cases h
  exact ⟨c, hc, rfl⟩

theorem nvFault_next {r : ExceptionRecord} {isWrite : Bool} {s t : State} (h : nvFault r isWrite s = .next t) :
    t = raiseHere (nvFaultRecord r isWrite s) s := by
  rcases nvFault_cases r isWrite s with ⟨-, he⟩ | ⟨q, -, he⟩ <;> rw [he] at h <;> cases h
  rfl

theorem readNvMem_next {rt : BitVec 5} {s t : State} (h : readNvMem rt s = .next t) :
    (∃ v, t = completeRead rt v s) ∨ ∃ r, t = raiseHere (nvFaultRecord r false s) s := by
  rcases readNvMem_cases rt s with ⟨-, -, he⟩ | ⟨-, r, -, he⟩ | ⟨-, he⟩ <;> rw [he] at h
  · exact .inl ⟨_, (Host.Outcome.next.inj h).symm⟩
  · exact .inr ⟨r, nvFault_next h⟩
  · cases h

theorem writeNvMem_next {rt : BitVec 5} {s t : State} (h : writeNvMem rt s = .next t) :
    (∃ m, t = completeWrite rt { s with mem := m }) ∨ ∃ r, t = raiseHere (nvFaultRecord r true s) s := by
  rcases writeNvMem_cases rt s with ⟨-, -, he⟩ | ⟨-, r, -, he⟩ | ⟨-, he⟩ <;> rw [he] at h
  · exact .inl ⟨_, (Host.Outcome.next.inj h).symm⟩
  · exact .inr ⟨r, nvFault_next h⟩
  · cases h

/-! ### Contents -/

section
variable {P : EsrContent → Prop} {s t : State}

/-- With the window closed the register's content is the only one. -/
theorem allContents_of_closed (hwin : t.window = windowClosed) (hesr : P t.esrEl1) : allContents P t := by
  simp [allContents, hwin, windowClosed, hesr]

/-- Marking reads adds and removes no content. -/
theorem allContents_of_marked (hinv : allContents P s) (hesr : t.esrEl1 = s.esrEl1)
    (hwrites : ∀ n c, WindowAccess.write n c ∈ t.window.order ↔ WindowAccess.write n c ∈ s.window.order)
    (hbefore : t.window.before = s.window.before) (hnil : t.window.order = [] ↔ s.window.order = []) : allContents P t := by
  simpa only [allContents, hesr, hwrites, hbefore, ne_eq, hnil] using hinv

/-- An exception entry brings in the record's syndrome where EL1 is the target, and nothing elsewhere. -/
theorem enterException_allContents {r : ExceptionRecord} (hesr : P s.esrEl1)
    (hentry : r.target = .el1 → P (.known (esrEl1Entry s r))) : allContents P (enterException r s) := by
  refine allContents_of_closed (enterException_window r s) ?_
  by_cases h : r.target = .el1
  · rw [(enterException_el1 s h).1]
    exact hentry h
  · rwa [enterException_esrEl1_of_ne s h]

theorem readEsrEl1_allContents (hinv : allContents P s) (n : EsrName) (rt : BitVec 5) : allContents P (readEsrEl1 n rt s) := by
  obtain ⟨hesr, hbefore, hwrites⟩ := hinv
  obtain ⟨writes, before⟩ := windowAfterRead_contents n rt s
  refine ⟨by rwa [readEsrEl1_esrEl1], fun hne => ?_, fun m c hmem => hwrites m c (writes m c hmem)⟩
  rcases before hne with h | ⟨hopen, h⟩ <;> rw [readEsrEl1_window, h]
  · exact hesr
  · exact hbefore hopen

theorem storeEsrEl1_allContents (hinv : allContents P s) {c : EsrContent} (hc : P c) (n : EsrName) (rt : BitVec 5) :
    allContents P (complete (storeEsrEl1 n rt c s)) := by
  obtain ⟨hesr, hbefore, hwrites⟩ := hinv
  obtain ⟨writes, before⟩ := windowAfterWrite_contents n rt c s
  refine ⟨?_, fun hne => ?_, fun m d hmem => ?_⟩
  · rcases storeEsrEl1_esrEl1_cases n rt c s with h | ⟨m, -, h⟩
    · rwa [complete_esrEl1, h]
    · exact hwrites m _ h
  · rcases before hne with h | ⟨hopen, h⟩ <;> rw [complete_window, storeEsrEl1_window, h]
    · exact hesr
    · exact hbefore hopen
  · rcases writes m d hmem with rfl | h
    · exact hc
    · exact hwrites m d h

theorem nvFault_allContents (hinv : allContents P s) (r : ExceptionRecord) (isWrite : Bool) :
    allContents P (raiseHere (nvFaultRecord r isWrite s) s) :=
  enterException_allContents hinv.1 fun h => by simp [nvFaultRecord] at h

/-- An exception without data, taken to EL1, brings in the syndrome of a record the model takes. -/
theorem enterException_plain_allContents (hesr : P s.esrEl1) (hnew : ∀ c, NewContent s c → P c) {cls : ExcClass}
    (hcls : cls = .unknownReason ∨ cls = .pcAlignment) : allContents P (enterException (plainRecord cls s) s) :=
  enterException_allContents hesr fun h =>
    hnew _ (.inr (.inr ⟨s, _, rfl, recordProblem_plainRecord hcls h, h, rfl⟩))

/-- An accessor brings in no content but a new one. -/
theorem exec_allContents (hinv : allContents P s) (hnew : ∀ c, NewContent s c → P c) {i : Instr} (h : exec i s = .next t) :
    allContents P t := by
  rcases exec_cases h with rfl | ⟨-, -, rfl⟩ | ⟨-, -, rfl⟩ | ⟨-, -, hw⟩ | ⟨-, rfl⟩ | ⟨-, rfl⟩ | ⟨-, -, -, hr⟩ |
    ⟨-, -, -, hw⟩
  · exact enterException_plain_allContents (s := { s with preferredReturn := s.pc }) hinv.1 hnew (.inl rfl)
  · exact enterException_allContents hinv.1 fun h => by simp [trapRecord] at h
  · exact readEsrEl1_allContents hinv i.name i.rt
  · obtain ⟨c, hc, rfl⟩ := writeEsrEl1_next hw
    exact storeEsrEl1_allContents hinv (hnew c (.inr (.inl ⟨_, hc⟩))) i.name i.rt
  · apply allContents_of_marked hinv <;> simp
  · apply allContents_of_marked hinv <;> simp
  · rcases readNvMem_next hr with ⟨v, rfl⟩ | ⟨r, rfl⟩
    · apply allContents_of_marked hinv <;> simp
    · exact nvFault_allContents hinv r false
  · rcases writeNvMem_next hw with ⟨m, rfl⟩ | ⟨r, rfl⟩
    · apply allContents_of_marked hinv <;> simp
    · exact nvFault_allContents hinv r true

/-- A step brings in no content but a new one: a property of all contents is kept where every new content has it. -/
theorem step_allContents (hinv : allContents P s) (hnew : ∀ c, NewContent s c → P c) (h : step s = .next t) : allContents P t := by
  have hesr : P s.esrEl1 := hinv.1
  rcases step_cases h with ⟨w, rest, i, -, -, -, he⟩ | ⟨w, rest, -, -, rfl⟩ | ⟨r, rest, -, hp, -, rfl⟩ | ⟨l, rest, -, rfl⟩ |
    ⟨l, a, rest, -, rfl⟩ | ⟨rest, -, rfl⟩ | ⟨v, rest, c, -, -, hc, rfl⟩ | ⟨e, rest, -, rfl⟩ | ⟨e, rest, -, rfl⟩ |
    ⟨r, rest, -, rfl⟩
  · exact exec_allContents (s := { s with inputs := rest }) hinv hnew he
  · exact enterException_plain_allContents (s := { s with inputs := rest }) hesr hnew (.inr rfl)
  · exact enterException_allContents hesr fun ht => hnew _ (.inr (.inr ⟨_, r, rfl, hp, ht, rfl⟩))
  · exact allContents_of_closed (enterLevel_window l _) hesr
  · refine allContents_of_closed (exceptionReturn_window l a _) ?_
    rw [exceptionReturn_esrEl1]
    split
    · exact hnew _ (.inl rfl)
    · exact hesr
  · exact allContents_of_closed (contextSync_window _) hesr
  · exact allContents_of_closed rfl (hnew c (.inr (.inl ⟨_, hc⟩)))
  · exact hinv
  · obtain ⟨hwrites, hbefore, hnil⟩ := applyOther_window_contents e { s with inputs := rest }
    exact allContents_of_marked hinv (applyOther_esrEl1 e _) hwrites hbefore hnil
  · exact allContents_of_closed (applyReset_window r _) (hnew _ (.inl rfl))

end

/-! ### RES0 on bits [63:32] -/

/-- Every content a step can bring in obeys RES0: software's is cut to the stored bits, hardware's has zero there. -/
theorem contentRes0_of_newContent {s : State} {c : EsrContent} (h : NewContent s c) : contentRes0 s.params c := by
  rcases h with rfl | ⟨v, hc⟩ | ⟨s', r, -, -, -, rfl⟩
  · trivial
  · rcases contentWritten_cases hc with ⟨rfl, -⟩ | ⟨rfl, -, -⟩
    · exact fun hres0 => by simp [hiOf_storedBits, hres0]
    · trivial
  · exact fun _ => hiOf_esrEl1Entry s' r

/-- Settles O54: the new contents obey RES0, and the parameters stay. -/
theorem stepKeepsRes0Inv : Obligations.StepKeepsRes0Inv := by
  intro s t hinv h
  obtain ⟨hparams, -⟩ := stepKeepsTheParameters s t h
  rw [Res0Inv, hparams]
  exact step_allContents hinv (fun c => contentRes0_of_newContent) h

/-- Settles O56: the register is UNKNOWN, the window closed, the memory empty. -/
theorem resetMeetsTheInvariants : Obligations.ResetMeetsTheInvariants :=
  ⟨rfl, allContents_of_closed rfl trivial, allContents_of_closed rfl trivial⟩

end Sys2Proof.Machine
end

section
/-! The events that write ESR_EL1 (R25): exception entry, exception return, DFSR and reset; and that nothing but these and software
does. -/

namespace Sys2Proof.Machine

/-- The level and the frame that the entry of a delivered exception leaves (R179, R223). -/
theorem enterException_entered {r : ExceptionRecord} (s : State) (h : r.target ≠ .el0) :
    EnteredByEvent r.target s (enterException r s) :=
  ⟨enterException_pstateEl r s, enterException_pc s h, enterException_preferredReturn r s, fun x => readX_congr (enterException_x r s) x,
    fun a => by rw [enterException_mem], enterException_params r s, enterException_env r s⟩

/-- A step that is given a record the model takes and that fits the state enters the exception. -/
theorem step_exception {s : State} {r : ExceptionRecord} {rest : List Input} (hin : s.inputs = .exception r :: rest)
    (hp : recordProblem s.params r = none) (hf : recordFits s r = true) :
    step s = .next (enterException r { s with inputs := rest }) := by
  have fits : recordFits { s with inputs := rest } r = true := hf
  simp [step, hin, applyEvent, takeException, hp, fits]

/-- Settles O27: the draw is the state's next. -/
theorem exceptionToEl1WritesTheSyndrome : Obligations.ExceptionToEl1WritesTheSyndrome := by
  intro s r rest hin hp hf htarget hdefined
  obtain ⟨hesr1, hesr2, hesr3⟩ := enterException_el1 { s with inputs := rest } htarget
  have entered := enterException_entered { s with inputs := rest } (target_ne_el0 hp)
  rw [htarget] at entered
  refine ⟨_, Config.freeValue s.draws, step_exception hin hp hf, ?_, entered, hesr2, hesr3, enterException_inputs r _⟩
  simp [hesr1, esrEl1Entry, hdefined]

/-- A record without data has the syndrome of an unknown reason. -/
theorem syndrome_unknownReason (p : Params) (g : SyndromeInputs) {r : ExceptionRecord} (d : Word) (h : r.cls = .unknownReason) :
    syndrome p g r d = unknownReasonSyndrome := by
  simp [syndrome, ecOfRecord, ilOfRecord, ilForced, issOfRecord, layoutOfRecord, issUnk, unknownReasonSyndrome, h]

/-- What an UNPREDICTABLE instruction treated as UNDEFINED leaves is the syndrome of a record that an exception from the same level
could have (R28): the free record where the rules allow it, one of an unknown reason otherwise. -/
theorem unpredictableSyndrome_allowed (p : Params) (g : SyndromeInputs) {fromEl : ExceptionLevel}
    (hfrom : fromEl.rank ≤ ExceptionLevel.el1.rank) (n : Nat) :
    ∃ r d, recordProblem p r = none ∧ r.target = .el1 ∧ r.fromEl = fromEl ∧ r.unpredictableAsUndefined = false ∧
      unpredictableSyndrome p g fromEl n = syndrome p g r d := by
  unfold unpredictableSyndrome
  by_cases h : allowedAtEl1 p fromEl (Config.freeRecord n) = true
  · rw [if_pos h]
    simp only [allowedAtEl1, Bool.and_eq_true, decide_eq_true_eq, Bool.not_eq_true'] at h
    obtain ⟨⟨⟨hp, htarget⟩, hlevel⟩, hdefined⟩ := h
    exact ⟨_, _, hp, htarget, hlevel, hdefined, rfl⟩
  · rw [if_neg h]
    exact ⟨{ cls := .unknownReason, target := .el1, fromEl := fromEl }, 0, recordProblem_dataless p (.inl rfl) rfl hfrom, rfl, rfl, rfl,
      (syndrome_unknownReason p g 0 rfl).symm⟩

/-- Settles O30, by the two cases of the free record. -/
theorem unpredictableLeavesAPossibleSyndrome : Obligations.UnpredictableLeavesAPossibleSyndrome := by
  intro s r rest hin hp hf htarget hunpredictable
  have hfrom : r.fromEl.rank ≤ ExceptionLevel.el1.rank := by
    obtain ⟨levels, -⟩ := recordProblem_none hp
    simpa [targetOk, htarget] using levels
  obtain ⟨r', d, hp', htarget', hlevel, hdefined, hsyn⟩ := unpredictableSyndrome_allowed s.params (syndromeInputs s) hfrom s.draws
  obtain ⟨hesr1, -, -⟩ := enterException_el1 { s with inputs := rest } htarget
  have entered := enterException_entered { s with inputs := rest } (target_ne_el0 hp)
  rw [htarget] at entered
  refine ⟨_, r', d, step_exception hin hp hf, hp', htarget', hlevel, hdefined, ?_, entered⟩
  simp [hesr1, esrEl1Entry, hunpredictable, hsyn]

/-- Settles O49, by the level the return is made from. -/
theorem exceptionReturnMakesUnknown : Obligations.ExceptionReturnMakesUnknown := by
  intro s l a rest hin
  refine ⟨exceptionReturn l a { s with inputs := rest }, by simp [step, hin, applyEvent], fun hel => ?_, fun hel => ?_, rfl, rfl,
    fun _ => rfl, fun _ => rfl, rfl, rfl, rfl, rfl, rfl, rfl⟩
  · exact if_pos hel
  · exact if_neg hel

/-- The EC of a word is a field of the low half it is put together from. -/
theorem ecOf_append (hi lo : BitVec 32) : ecOf (hi ++ lo) = lo.extractLsb' 26 6 := by
  rw [ecOf_eq_loOf, loOf_append]

/-- Settles O51: the high half is rewritten with itself, and the stored bits keep it because it obeys RES0. -/
theorem dfsrWriteWritesTheLowHalf : Obligations.DfsrWriteWritesTheLowHalf := by
  intro s v u rest hin h32 hesr hres0 hec
  have written : contentWritten s.params (hiOf u ++ v) = some (.known (storedBits s.params (hiOf u ++ v))) :=
    contentWritten_defined (by rwa [ecOf_append])
  have low : loOf (storedBits s.params (hiOf u ++ v)) = v := by rw [loOf_storedBits, loOf_append]
  have high : hiOf (storedBits s.params (hiOf u ++ v)) = hiOf u := by
    rw [hesr] at hres0
    rw [hiOf_storedBits, hiOf_append]
    cases hw : s.params.res0HiWritable
    · exact (hres0 hw).symm
    · rfl
  refine ⟨{ s with inputs := rest, esrEl1 := .known (storedBits s.params (hiOf u ++ v)), window := windowClosed, draws := s.draws + 1 },
    _, ?_, rfl, low, high, congrArg some low, fun _ => rfl, fun _ => rfl, rfl, rfl, rfl, rfl, rfl, rfl, rfl, rfl⟩
  simp [step, hin, applyEvent, writeDfsr, h32, hesr, valueOf, written]

/-- Settles O52: the event is the reset itself, and `State.reset` has the register UNKNOWN. -/
theorem resetMakesEsrEl1Unknown : Obligations.ResetMakesEsrEl1Unknown := by
  refine ⟨rfl, fun s r rest hin => ⟨applyReset r { s with inputs := rest }, ?_, rfl, rfl, rfl, rfl, rfl, rfl, rfl⟩⟩
  simp [step, hin, applyEvent]

/-! ### Who changes ESR_EL1 (R25) -/

/-- `pc` is aligned when it is a multiple of 4 (R231). -/
theorem pcAligned_iff (s : State) : pcAligned s = true ↔ s.pc.toNat % 4 = 0 := by
  simp [pcAligned, ← BitVec.toNat_inj]

/-- A fault on the NVMem access is taken to EL2 (R44). -/
theorem nvFault_esrEl1 (r : ExceptionRecord) (isWrite : Bool) (s : State) :
    (raiseHere (nvFaultRecord r isWrite s) s).esrEl1 = s.esrEl1 :=
  enterException_esrEl1_of_ne _ (by simp [nvFaultRecord])

/-- An exception that changes ESR_EL1 is taken to EL1. -/
theorem target_el1_of_change {r : ExceptionRecord} {s : State} (hne : (enterException r s).esrEl1 ≠ s.esrEl1) : r.target = .el1 :=
  not_not.mp (mt (enterException_esrEl1_of_ne s) hne)

/-- An accessor that changes ESR_EL1 is an UNDEFINED one taken to EL1 or a write that reaches the register. -/
theorem exec_changes_esrEl1 {i : Instr} {s t : State} (h : exec i s = .next t) (hne : t.esrEl1 ≠ s.esrEl1) :
    (reachOf i s = .undef ∧ syncTarget s = .el1 ∧ t = undefinedAccess s) ∨ (i.isRead = false ∧ reachOf i s = .reg1) := by
  rw [exec_eq_outcomeOf] at h
  cases hreach : reachOf i s <;> rw [hreach, outcomeOf] at h
  case reg1 =>
    cases hread : i.isRead
    · exact .inr ⟨rfl, rfl⟩
    · obtain rfl : readEsrEl1 i.name i.rt s = t := by simpa [hread] using h
      exact absurd (readEsrEl1_esrEl1 ..) hne
  case reg2 =>
    refine absurd ?_ hne
    split at h
    · obtain rfl : readEsrEl2 i.rt s = t := by simpa using h
      exact readEsrEl2_esrEl1 ..
    · obtain rfl : writeEsrEl2 i.rt s = t := by simpa using h
      exact writeEsrEl2_esrEl1 ..
  case mem =>
    refine absurd ?_ hne
    split at h
    · rcases readNvMem_next h with ⟨v, rfl⟩ | ⟨r, rfl⟩
      · exact completeRead_esrEl1 ..
      · exact nvFault_esrEl1 r false s
    · rcases writeNvMem_next h with ⟨m, rfl⟩ | ⟨r, rfl⟩
      · rfl
      · exact nvFault_esrEl1 r true s
  case trap =>
    obtain rfl : systemAccessTrap i.name i.isRead i.rt s = t := by simpa using h
    exact absurd (target_el1_of_change hne) (by simp [trapRecord])
  case undef =>
    obtain rfl : undefinedAccess s = t := by simpa using h
    exact .inl ⟨rfl, target_el1_of_change hne, rfl⟩

/-- What an entry to EL1 leaves: the level, its handler, and a syndrome with zero in [63:32]. -/
theorem enterException_enters_el1 {r : ExceptionRecord} (s : State) (h : r.target = .el1) :
    (enterException r s).pstateEl = .el1 ∧ (enterException r s).pc = s.env.handlerEl1 ∧
      ∃ v, (enterException r s).esrEl1 = .known v ∧ hiOf v = 0 := by
  obtain ⟨hesr, -, -⟩ := enterException_el1 s h
  refine ⟨(enterException_pstateEl r s).trans h, ?_, _, hesr, hiOf_esrEl1Entry s r⟩
  rw [enterException_pc s (by simp [h]), h, handlerOf]

/-- Settles O58, by what a step can do: every other step leaves the register. -/
theorem onlyFourAgentsChangeEsrEl1 : Obligations.OnlyFourAgentsChangeEsrEl1 := by
  intro s t h hne
  rcases step_cases h with ⟨w, rest, i, hin, halign, hdec, he⟩ | ⟨w, rest, hin, halign, rfl⟩ | ⟨r, rest, hin, -, -, rfl⟩ |
    ⟨l, rest, -, rfl⟩ | ⟨l, a, rest, hin, rfl⟩ | ⟨rest, -, rfl⟩ | ⟨v, rest, c, hin, h32, -, rfl⟩ | ⟨e, rest, -, rfl⟩ |
    ⟨e, rest, -, rfl⟩ | ⟨r, rest, hin, rfl⟩
  · have reach : reachOf i { s with inputs := rest } = reachOf i s := reachOf_congr i rfl ⟨rfl, rfl⟩
    rcases exec_changes_esrEl1 he hne with ⟨hreach, htarget, rfl⟩ | ⟨hwrite, hreach⟩
    · obtain ⟨hel, hpc, hesr⟩ := enterException_enters_el1 (r := plainRecord .unknownReason { s with inputs := rest })
        { s with inputs := rest, preferredReturn := s.pc } htarget
      exact .inl ⟨hel, hpc, hesr, .inr (.inl ⟨w, rest, i, hin, (pcAligned_iff s).mp halign, hdec, reach ▸ hreach, htarget⟩)⟩
    · rw [reach] at hreach
      refine .inr (.inr (.inl ⟨fun hel => ?_, w, rest, i, hin, hdec, hwrite, hreach⟩))
      simp [reachOf_el0 i hel] at hreach
  · have htarget := target_el1_of_change hne
    obtain ⟨hel, hpc, hesr⟩ := enterException_enters_el1 { s with inputs := rest } htarget
    refine .inl ⟨hel, hpc, hesr, .inr (.inr ⟨w, rest, hin, fun h4 => ?_, htarget⟩)⟩
    simp [(pcAligned_iff s).mpr h4] at halign
  · have htarget := target_el1_of_change hne
    obtain ⟨hel, hpc, hesr⟩ := enterException_enters_el1 { s with inputs := rest } htarget
    exact .inl ⟨hel, hpc, hesr, .inl ⟨r, rest, hin, htarget⟩⟩
  · exact absurd rfl hne
  · by_cases hel : s.pstateEl = .el1
    · exact .inr (.inl ⟨hel, if_pos hel, l, a, rest, hin⟩)
    · exact absurd (if_neg hel) hne
  · exact absurd rfl hne
  · exact .inr (.inr (.inr (.inl ⟨h32, v, rest, hin⟩)))
  · exact absurd rfl hne
  · exact absurd (applyOther_esrEl1 e _) hne
  · exact .inr (.inr (.inr (.inr ⟨rfl, r, rest, hin⟩)))

end Sys2Proof.Machine
end

section
/-! The syndrome bit by bit: the layouts cover the register, RES0 rows are zero, and each subfield of a trapped access stands in its
place. -/

namespace Sys2Proof.Machine

/-- Settles O47, layout by layout: the rows of each tile the 25 bits. -/
theorem fieldsCoverEveryBit : Obligations.FieldsCoverEveryBit := by
  refine ⟨rfl, fun p l => ?_⟩
  cases l <;> rfl

/-! ### The unknown reason -/

/-- An EC of a pair is 0 only where one of the pair's two values is. -/
theorem lowerOrSame_ne {r : ExceptionRecord} {lower same ec : BitVec 6} (hl : lower ≠ ec) (hs : same ≠ ec) :
    lowerOrSame r lower same ≠ ec := by
  unfold lowerOrSame
  split
  · exact hs
  · exact hl

/-- Only the layout of an unknown reason goes with EC 0. -/
theorem layoutOfRecord_of_ec_zero {p : Params} {g : SyndromeInputs} {r : ExceptionRecord} (h : ecOfRecord p g r = some 0) :
    layoutOfRecord p g r = .unk := by
  cases hcls : r.cls <;> simp only [ecOfRecord, layoutOfRecord, hcls, Option.some.injEq, reduceCtorEq] at h ⊢
  case fpAccess | sveAccess => split at h <;> simp_all
  case instAbort | dataAbort | breakpoint | vectorCatch | softwareStep | watchpoint =>
    exact absurd h (lowerOrSame_ne (by decide) (by decide))
  all_goals exact absurd h (by decide)

/-- Settles O32: the layout is that of an unknown reason, and EC 0 forces IL. -/
theorem unknownReasonSyndromeIsOneValue : Obligations.UnknownReasonSyndromeIsOneValue := by
  intro p g r d hec
  have hiss : issOfRecord p g r d = 0 := by rw [issOfRecord, layoutOfRecord_of_ec_zero hec, issUnk]
  have hil : ilOfRecord p g r d = 1 := by simp [ilOfRecord, hec, ilForced]
  exact ⟨hiss, hil, by simp [syndrome, hec, hiss, hil]⟩

end Sys2Proof.Machine
end

section
/-! The ISS layouts row by row: the RES0 rows hardware writes, and each subfield of a trapped access in its place. -/

namespace Sys2Proof.Machine

open BitVec (extractLsb'_append_eq_of_le extractLsb'_append_eq_of_add_le)

/-! ### RES0 rows (R22) -/

/-- Bit [13] has no name and is zero without ARMv8.4-NV (R121, R153). -/
theorem vncrBit_of_not_haveNv2 {p : Params} (h : p.haveNv2 = false) (r : ExceptionRecord) : vncrBit p r = 0 := by
  simp [vncrBit, h]

/-- Zero has zero in every row. -/
theorem res0RowsZero_zero (rows : List FieldRow) : res0RowsZero rows 0 = true := by
  simp [res0RowsZero, issField]

/-- Rows none of which is RES0 ask nothing. -/
theorem res0RowsZero_of_named {rows : List FieldRow} (h : ∀ row ∈ rows, row.name ≠ "RES0") (v : BitVec 25) :
    res0RowsZero rows v = true := by
  simpa [res0RowsZero] using fun row hrow => Or.inl (h row hrow)

theorem issSerr_res0 (p : Params) {r : ExceptionRecord} (h : r.serrImpdef = false) (ids : BitVec 24) (ea : BitVec 1) :
    res0RowsZero (issFields p .serr) (issSerr p r ids ea) = true := by
  rw [issSerr, h, if_neg Bool.false_ne_true]
  split
  · exact res0RowsZero_zero _
  · simp +decide only [res0RowsZero, issFields, List.all_cons, List.all_nil, issField, extractLsb'_append_eq_of_le,
      extractLsb'_append_eq_of_add_le]
    cases hiesb : p.haveIesb <;> simp

theorem issSmc32_res0 (p : Params) (r : ExceptionRecord) (d : Word) :
    res0RowsZero (issFields p .smc32) (issSmc32 p r d) = true := by
  unfold issSmc32
  split
  · exact res0RowsZero_zero _
  · simp +decide only [res0RowsZero, issFields, condRows, List.cons_append, List.nil_append, List.all_cons, List.all_nil, issField,
      extractLsb'_append_eq_of_le, extractLsb'_append_eq_of_add_le]
    simp

/-- Only an SError has its layout (R62). -/
theorem cls_of_layout_serr {p : Params} {g : SyndromeInputs} {r : ExceptionRecord} (h : layoutOfRecord p g r = .serr) :
    r.cls = .sError := by
  cases hcls : r.cls <;> simp only [layoutOfRecord, hcls, reduceCtorEq] at h ⊢
  case fpAccess | sveAccess => split at h <;> cases h

/-- Settles O48, layout by layout. -/
theorem hardwareWritesRes0AsZero : Obligations.HardwareWritesRes0AsZero := by
  intro p g r d hserr
  cases hl : layoutOfRecord p g r <;> simp only [issOfRecord, hl]
  case unk | sveAcc | ill | pac => exact res0RowsZero_zero _
  case mcr | impEl3 => exact res0RowsZero_of_named (by simp [issFields, condRows]) _
  case smc32 => exact issSmc32_res0 p r d
  case serr =>
    have harch : r.serrImpdef = false := hserr.resolve_left (not_not_intro (cls_of_layout_serr hl))
    exact issSerr_res0 p harch _ _
  case dabt | wpt =>
    simp +decide only [issDabt, issWpt, res0RowsZero, issFields, List.all_cons, List.all_nil, issField,
      extractLsb'_append_eq_of_le, extractLsb'_append_eq_of_add_le]
    cases hnv2 : p.haveNv2 <;> simp [vncrBit_of_not_haveNv2, hnv2]
  case svc =>
    split
    all_goals
      simp +decide only [issHvc, issSvc, res0RowsZero, issFields, imm16Rows, List.all_cons, List.all_nil, issField,
        extractLsb'_append_eq_of_le]
      simp
  case bkpt => rfl
  case eret =>
    rw [issEret]
    cases r.eret <;> rfl
  all_goals
    simp +decide only [issWfx, issMcrr, issLdc, issFpAcc, issSmc64, issSys, issIabt, issFpExc, issSstep, issBrk, issBti,
      res0RowsZero, issFields, condRows, imm16Rows, List.cons_append, List.nil_append, List.all_cons, List.all_nil, issField,
      extractLsb'_append_eq_of_le, extractLsb'_append_eq_of_add_le]
    simp

/-! ### Trapped System register accesses (R71 to R84, R97, R98) -/

/-- A register-number subfield holds a number that the register operand may be reported with (R23, R178). -/
theorem regField_reports (r : ExceptionRecord) (reg : RegDesc) (d : BitVec 5) : ReportsRegister r reg (regField r reg d) := by
  cases reg with
  | view n => rfl
  | a32 a =>
    unfold ReportsRegister regField
    by_cases ha : a = 0b1111
    · simp only [if_pos ha]
      split
      · next hfree =>
        simp only [Bool.and_eq_true, decide_eq_true_eq, usableViews, List.mem_map, List.mem_filter] at hfree
        obtain ⟨hunpredictable, m, ⟨hm, hne⟩, hview⟩ := hfree
        exact .inr ⟨hunpredictable, m, hm, hne, hview.symm⟩
      · exact .inl rfl
    · simp only [if_neg ha]

/-- The SYS layout: Op2 above Op1, Rt between CRn and CRm (R97, R98). -/
theorem issSys_fields (r : ExceptionRecord) (d : Word) :
    issField (issSys r d) 24 22 = 0 ∧ issField (issSys r d) 21 20 = r.op0 ∧ issField (issSys r d) 19 17 = r.op2 ∧
      issField (issSys r d) 16 14 = r.op1 ∧ issField (issSys r d) 13 10 = r.crn ∧
      issField (issSys r d) 9 5 = regField r r.rt (drawn d 5 5) ∧ issField (issSys r d) 4 1 = r.crm ∧
      issField (issSys r d) 0 0 = BitVec.ofBool r.isRead := by
  simp +decide only [issField, issSys, extractLsb'_append_eq_of_le, extractLsb'_append_eq_of_add_le]
  simp

/-- The MCR layout, with the fixed values of a VMRS (R71 to R73). -/
theorem issMcr_fields (p : Params) (r : ExceptionRecord) (d : Word) :
    issField (issMcr p r d) 19 17 = (if r.isVmrs = true then 0b000 else r.opc2) ∧
      issField (issMcr p r d) 16 14 = (if r.isVmrs = true then 0b111 else r.opc1.extractLsb' 0 3) ∧
      issField (issMcr p r d) 13 10 = r.crn ∧ issField (issMcr p r d) 9 5 = regField r r.rt (drawn d 5 5) ∧
      issField (issMcr p r d) 4 1 = (if r.isVmrs = true then 0b0000 else r.crm) ∧
      issField (issMcr p r d) 0 0 = BitVec.ofBool (r.isRead || r.isVmrs) := by
  simp +decide only [issField, issMcr, extractLsb'_append_eq_of_le, extractLsb'_append_eq_of_add_le]
  simp

/-- The MCRR layout (R76, R77). -/
theorem issMcrr_fields (p : Params) (r : ExceptionRecord) (d : Word) :
    issField (issMcrr p r d) 19 16 = r.opc1 ∧ issField (issMcrr p r d) 15 15 = 0 ∧
      issField (issMcrr p r d) 14 10 = regField r r.rt2 (drawn d 10 5) ∧
      issField (issMcrr p r d) 9 5 = regField r r.rt (drawn d 5 5) ∧ issField (issMcrr p r d) 4 1 = r.crm ∧
      issField (issMcrr p r d) 0 0 = BitVec.ofBool r.isRead := by
  simp +decide only [issField, issMcrr, extractLsb'_append_eq_of_le, extractLsb'_append_eq_of_add_le]
  simp

/-- The LDC layout; AM is the form, then P and W (R79 to R84). -/
theorem issLdc_fields (p : Params) (r : ExceptionRecord) (d : Word) :
    issField (issLdc p r d) 19 12 = r.imm8 ∧ issField (issLdc p r d) 11 10 = 0 ∧
      issField (issLdc p r d) 9 5 = (if r.literal = true then drawn d 5 5 else regField r r.rn (drawn d 5 5)) ∧
      issField (issLdc p r d) 4 4 = BitVec.ofBool r.add ∧ issField (issLdc p r d) 3 3 = BitVec.ofBool r.literal ∧
      issField (issLdc p r d) 2 2 = BitVec.ofBool r.p ∧ issField (issLdc p r d) 1 1 = BitVec.ofBool r.w ∧
      issField (issLdc p r d) 0 0 = BitVec.ofBool r.isLoad := by
  simp +decide only [issField, issLdc, ldcAm, extractLsb'_append_eq_of_le, extractLsb'_append_eq_of_add_le]
  simp

/-- A trapped AArch64 instruction gives its register by number: the record check takes no descriptor from AArch64 state (R23). -/
theorem sysTrap_rt_view {p : Params} {r : ExceptionRecord} (hp : recordProblem p r = none) (hcls : r.cls = .sysTrap) :
    ∃ t, r.rt = .view t := by
  obtain ⟨-, -, -, hstate, -, hregs, -⟩ := recordProblem_none hp
  cases hrt : r.rt with
  | view t => exact ⟨t, rfl⟩
  | a32 a => simp_all [execStateOk, aarch32Class, aarch64Class, registersOk, registerOk]

/-- Coproc 0b1110 has a trapped MRRC only (R78, R189). -/
theorem mrrcCp14_isRead {p : Params} {r : ExceptionRecord} (hp : recordProblem p r = none) (hcls : r.cls = .mrrcCp14) :
    r.isRead = true := by
  obtain ⟨-, -, -, -, -, -, hdirection, -⟩ := recordProblem_none hp
  simpa [directionOk, hcls] using hdirection

/-- Settles O40, layout by layout. -/
theorem systemTrapFields : Obligations.SystemTrapFields := by
  intro p g r d hp
  refine ⟨fun hcls => ?_, fun hcls => ?_, fun hcls => ?_, fun hcls => ?_⟩
  · have hiss : issOfRecord p g r d = issSys r d := by simp [issOfRecord, layoutOfRecord, hcls]
    obtain ⟨res0, op0, op2, op1, crn, rt, crm, direction⟩ := issSys_fields r d
    obtain ⟨t, hrt⟩ := sysTrap_rt_view hp hcls
    rw [hiss]
    exact ⟨by simp [ecOfRecord, hcls], res0, op0, op2, op1, crn, ⟨t, hrt, by rw [rt, hrt, regField]⟩, crm, direction⟩
  · have hiss : issOfRecord p g r d = issMcr p r d := by
      rcases hcls with hcls | hcls <;> simp [issOfRecord, layoutOfRecord, hcls]
    obtain ⟨opc2, opc1, crn, rt, crm, direction⟩ := issMcr_fields p r d
    rw [hiss]
    refine ⟨opc2, opc1, crn, rt ▸ regField_reports .., crm, direction.trans ?_⟩
    cases r.isVmrs <;> simp
  · have hiss : issOfRecord p g r d = issMcrr p r d := by
      rcases hcls with hcls | hcls <;> simp [issOfRecord, layoutOfRecord, hcls]
    obtain ⟨opc1, res0, rt2, rt, crm, direction⟩ := issMcrr_fields p r d
    rw [hiss]
    refine ⟨opc1, res0, rt2 ▸ regField_reports .., rt ▸ regField_reports .., crm, direction.trans ?_⟩
    split
    · next hcp14 => simp [mrrcCp14_isRead hp hcp14]
    · rfl
  · have hiss : issOfRecord p g r d = issLdc p r d := by simp [issOfRecord, layoutOfRecord, hcls]
    obtain ⟨imm8, res0, rn, add, literal, index, writeback, direction⟩ := issLdc_fields p r d
    rw [hiss]
    refine ⟨imm8, res0, fun hl => ?_, add, literal, index, writeback, direction⟩
    rw [rn, hl, if_neg Bool.false_ne_true]
    exact regField_reports ..

end Sys2Proof.Machine
end

section
/-! The memory behind NVMem across a step (R40 to R43): the cell write, the stores of other instructions and reset keep the canonical
form, and every other operation leaves the bytes. -/

namespace Sys2Proof.Machine

/-- The base as R42 and R167 require it, written out. -/
theorem nvBaseValid_iff (p : Params) : nvBaseValid p = true ↔ p.nvBase.toNat % 8 = 0 ∧ p.nvBase.toNat ≤ 2 ^ 64 - 0x140 := by
  simp [nvBaseValid]

/-- The state with a value stored in the cell of NVMem[0x138] (R40, R41). -/
def storeNvCell (v : Word) (s : State) : State :=
  { s with mem := Memory.write64 s.params.nvBigEndian s.mem (nvAddress s.params) v }

/-- The cell of a valid base lies in the 64-bit space, so a store into it keeps the canonical form. -/
theorem storeNvCell_memoryInv {s : State} (hbase : nvBaseValid s.params = true) (hwf : MemoryInv s) (v : Word) :
    MemoryInv (storeNvCell v s) :=
  Memory.wf_write64 (nvAddress_room hbase) hwf

/-- A fault on the NVMem access stores nothing (R44). -/
theorem nvFault_mem {r : ExceptionRecord} {isWrite : Bool} {s t : State} (h : nvFault r isWrite s = .next t) : t.mem = s.mem := by
  rw [nvFault_next h, raiseHere_mem]

/-- A read of NVMem stores nothing. -/
theorem readNvMem_mem {rt : BitVec 5} {s t : State} (h : readNvMem rt s = .next t) : t.mem = s.mem := by
  rcases readNvMem_next h with ⟨v, rfl⟩ | ⟨r, rfl⟩
  · exact completeRead_mem rt v s
  · exact raiseHere_mem _ s

theorem writeEsrEl1_mem {n : EsrName} {rt : BitVec 5} {s t : State} (h : writeEsrEl1 n rt s = .next t) : t.mem = s.mem := by
  obtain ⟨c, -, rfl⟩ := writeEsrEl1_next h
  exact storeEsrEl1_mem n rt c s

/-- A write of NVMem stores its cell at a valid base, or faults and stores nothing. -/
theorem writeNvMem_mem {rt : BitVec 5} {s t : State} (h : writeNvMem rt s = .next t) :
    t.mem = s.mem ∨ (nvBaseValid s.params = true ∧ t.mem = (storeNvCell (readX s rt) s).mem) := by
  rcases writeNvMem_cases rt s with ⟨hbase, -, he⟩ | ⟨-, r, -, he⟩ | ⟨-, he⟩ <;> rw [he] at h
  · cases h
    exact .inr ⟨hbase, rfl⟩
  · exact .inl (nvFault_mem h)
  · cases h

/-- An accessor leaves the memory, but for a write that reaches NVMem. -/
theorem exec_mem {i : Instr} {s t : State} (h : exec i s = .next t) :
    t.mem = s.mem ∨ (nvBaseValid s.params = true ∧ t.mem = (storeNvCell (readX s i.rt) s).mem) := by
  rcases exec_cases h with rfl | ⟨-, -, rfl⟩ | ⟨-, -, rfl⟩ | ⟨-, -, hw⟩ | ⟨-, rfl⟩ | ⟨-, rfl⟩ | ⟨-, -, -, hr⟩ | ⟨-, -, -, hw⟩
  · exact .inl (raiseHere_mem _ s)
  · exact .inl (raiseHere_mem _ s)
  · exact .inl (readEsrEl1_mem i.name i.rt s)
  · exact .inl (writeEsrEl1_mem hw)
  · exact .inl (readEsrEl2_mem i.rt s)
  · exact .inl (writeEsrEl2_mem i.rt s)
  · exact .inl (readNvMem_mem hr)
  · exact writeNvMem_mem hw

/-- What a step can do to the memory: nothing, the cell write of an accessor, the stores of an instruction outside the spec, or the
bytes a reset brings. -/
theorem step_mem {s t : State} (h : step s = .next t) :
    t.mem = s.mem ∨
      (∃ v, nvBaseValid s.params = true ∧ t.mem = (storeNvCell v s).mem) ∨
      (∃ e rest, s.inputs = .otherInstruction e :: rest ∧ t.mem = Memory.writeAll s.mem e.stores) ∨
      (∃ r rest, s.inputs = .reset r :: rest ∧ t.mem = Memory.writeAll [] r.bytes) := by
  rcases step_cases h with ⟨w, rest, i, -, -, -, he⟩ | ⟨w, rest, -, -, rfl⟩ | ⟨r, rest, -, -, -, rfl⟩ | ⟨l, rest, -, rfl⟩ |
    ⟨l, a, rest, -, rfl⟩ | ⟨rest, -, rfl⟩ | ⟨v, rest, c, -, -, -, rfl⟩ | ⟨e, rest, -, rfl⟩ | ⟨e, rest, hin, rfl⟩ |
    ⟨r, rest, hin, rfl⟩
  · rcases exec_mem he with hmem | ⟨hbase, hmem⟩
    · exact .inl hmem
    · exact .inr (.inl ⟨_, hbase, hmem⟩)
  · exact .inl (enterException_mem ..)
  · exact .inl (enterException_mem ..)
  · exact .inl (enterLevel_mem ..)
  · exact .inl (exceptionReturn_mem ..)
  · exact .inl (contextSync_mem ..)
  · exact .inl rfl
  · exact .inl (setEnvironment_mem ..)
  · exact .inr (.inr (.inl ⟨e, rest, hin, applyOther_mem ..⟩))
  · exact .inr (.inr (.inr ⟨r, rest, hin, applyReset_mem ..⟩))

/-- Settles O53: every operation on the memory that a step can make keeps the form. -/
theorem stepKeepsMemoryInv : Obligations.StepKeepsMemoryInv := by
  intro s t hwf h
  rcases step_mem h with hmem | ⟨v, hbase, hmem⟩ | ⟨e, rest, -, hmem⟩ | ⟨r, rest, -, hmem⟩ <;> rw [MemoryInv, hmem]
  · exact hwf
  · exact storeNvCell_memoryInv hbase hwf v
  · exact Memory.wf_writeAll hwf e.stores
  · exact Memory.wf_writeAll rfl r.bytes

end Sys2Proof.Machine
end

section
/-! The accessors where they reach NVMem[0x138] (R39 to R44, R165): the read and the write of the cell, an invalid base, a fault. -/

namespace Sys2Proof.Machine

open BitVec (extractLsb'_append_eq_of_le extractLsb'_append_eq_of_add_le)

theorem exec_eq_readNvMem {i : Instr} {s : State} (hr : i.isRead = true) (h : reachOf i s = .mem) :
    exec i s = readNvMem i.rt s := by
  simp [exec_eq_outcomeOf, h, outcomeOf, hr]

theorem exec_eq_writeNvMem {i : Instr} {s : State} (hw : i.isRead = false) (h : reachOf i s = .mem) :
    exec i s = writeNvMem i.rt s := by
  simp [exec_eq_outcomeOf, h, outcomeOf, hw]

/-- The cell of NVMem[0x138] as a read returns it (R40, R41). -/
def nvCell (s : State) : Word := Memory.read64 s.params.nvBigEndian s.mem (nvAddress s.params)

theorem nvCell_congr {s t : State} (hparams : t.params = s.params) (hmem : t.mem = s.mem) : nvCell t = nvCell s := by
  rw [nvCell, hparams, hmem, nvCell]

/-- The cell reads back what was stored in it. -/
theorem nvCell_storeNvCell {s : State} (hbase : nvBaseValid s.params = true) (hwf : MemoryInv s) (v : Word) :
    nvCell (storeNvCell v s) = v :=
  Memory.read64_write64 (nvAddress_room hbase) hwf

/-- An MRS that reaches NVMem at a valid base, without a fault, completes with the cell's value. -/
theorem exec_reads_nvCell {i : Instr} {s : State} (hread : i.isRead = true) (hreach : reachOf i s = .mem)
    (hbase : nvBaseValid s.params = true) (hfault : s.env.nvReadFault = none) :
    exec i s = .next (completeRead i.rt (nvCell s) s) := by
  simp [exec_eq_readNvMem hread hreach, readNvMem, hbase, hfault, nvCell]

/-- An MSR that reaches NVMem at a valid base, without a fault, completes with its register's value in the cell. -/
theorem exec_stores_nvCell {i : Instr} {s : State} (hwrite : i.isRead = false) (hreach : reachOf i s = .mem)
    (hbase : nvBaseValid s.params = true) (hfault : s.env.nvWriteFault = none) :
    exec i s = .next (completeWrite i.rt (storeNvCell (readX s i.rt) s)) := by
  simp [exec_eq_writeNvMem hwrite hreach, writeNvMem, hbase, hfault, storeNvCell]

/-- A completed read leaves what every completed accessor keeps (R160). -/
theorem completeRead_completed (rt : BitVec 5) (v : Word) (s : State) : Completed s (completeRead rt v s) := by
  simp [Completed, SameEnvironment]

/-- Settles O14: each byte of the cell is the byte of memory that the byte order puts there. -/
theorem mrsReadsNvMem : Obligations.MrsReadsNvMem := by
  intro i s hread hreach h8 hle hfault
  refine ⟨_, exec_reads_nvCell hread hreach ((nvBaseValid_iff s.params).mpr ⟨h8, hle⟩) hfault, fun h31 k hk => ?_, fun h31 => ?_,
    fun r hr => readX_completeRead_other s i.rt r _ hr, completeRead_esrEl1 .., completeRead_esrEl2 ..,
    fun a => by rw [completeRead_mem], completeRead_completed ..⟩
  · rw [readX_completeRead_same, if_pos ((toNat_lt_31_iff i.rt).mpr h31)]
    exact Memory.read64_byte s.params.nvBigEndian s.mem (nvAddress s.params) hk
  · rw [h31, readX_31]

/-- A byte of a value in the order R41 gives, in either order by one expression. -/
theorem byteAt_eq (bigEndian : Bool) (v : Word) (k : Nat) :
    byteAt bigEndian v k = v.extractLsb' (8 * (if bigEndian then 7 - k else k)) 8 := by
  cases bigEndian <;> rfl

/-- Settles O15: the cell write puts the value's bytes in their places and leaves every byte outside the eight. -/
theorem msrWritesNvMem : Obligations.MsrWritesNvMem := by
  intro i s hwf hwrite hreach h8 hle hfault
  have hbase := (nvBaseValid_iff s.params).mpr ⟨h8, hle⟩
  refine ⟨_, exec_stores_nvCell hwrite hreach hbase hfault, fun k hk => ?_, fun a ha => ?_, fun _ => rfl, rfl, rfl, rfl, rfl, rfl,
    rfl, rfl, rfl, rfl⟩
  · rw [← byteAt_eq]
    exact Memory.read_write64_byte (nvAddress_room hbase) hwf hk
  · exact Memory.read_write64_other s.params.nvBigEndian s.mem (nvAddress s.params) _ (by rw [nvAddress]; omega)

/-- Settles O16: the read finds the cell as the write left it. -/
theorem nvMemReadsBack : Obligations.NvMemReadsBack := by
  intro i j s hwf hwrite hread _ hreachI hreachJ h8 hle hwriteFault hreadFault
  have hbase := (nvBaseValid_iff s.params).mpr ⟨h8, hle⟩
  have hreachT : reachOf j (completeWrite i.rt (storeNvCell (readX s i.rt) s)) = .mem :=
    (reachOf_congr j rfl ⟨rfl, rfl⟩).trans hreachJ
  refine ⟨_, _, exec_stores_nvCell hwrite hreachI hbase hwriteFault, exec_reads_nvCell hread hreachT hbase hreadFault,
    fun h31 => ?_, completeRead_esrEl1 ..⟩
  rw [readX_completeRead_same, if_pos ((toNat_lt_31_iff j.rt).mpr h31)]
  exact nvCell_storeNvCell hbase hwf _

/-- Settles O17, for a read and for a write. -/
theorem invalidNvBaseIsRefused : Obligations.InvalidNvBaseIsRefused := by
  intro i s hreach hinvalid
  have hbase : nvBaseValid s.params = false := by
    rw [← Bool.not_eq_true, nvBaseValid_iff]
    omega
  cases hread : i.isRead
  · simp [exec_eq_writeNvMem hread hreach, writeNvMem, hbase]
  · simp [exec_eq_readNvMem hread hreach, readNvMem, hbase]

/-! ### A fault on the access (R44) -/

/-- An accessor whose NVMem access faults in its direction raises the fault. -/
theorem exec_eq_nvFault {i : Instr} {s : State} {r : ExceptionRecord} (hreach : reachOf i s = .mem)
    (hbase : nvBaseValid s.params = true) (hfault : (if i.isRead then s.env.nvReadFault else s.env.nvWriteFault) = some r) :
    exec i s = nvFault r (!i.isRead) s := by
  cases hread : i.isRead <;> simp only [hread, Bool.false_eq_true, if_false, if_true] at hfault
  · simp [exec_eq_writeNvMem hread hreach, writeNvMem, hbase, hfault]
  · simp [exec_eq_readNvMem hread hreach, readNvMem, hbase, hfault]

/-- The level and the frame that an exception raised by the instruction leaves (R163, R223, R231). -/
theorem raiseHere_entered {r : ExceptionRecord} (s : State) (h : r.target ≠ .el0) :
    EnteredFromHere r.target s (raiseHere r s) := by
  obtain ⟨hel, hpc, hret, hregs, hmem, hparams, henv⟩ := enterException_entered { s with preferredReturn := s.pc } h
  refine ⟨hel, hpc.trans ?_, hret, hregs, hmem, hparams, henv, raiseHere_inputs r s⟩
  cases r.target <;> rfl

/-- An exception raised by the instruction and taken to EL2 writes ESR_EL2, with the syndrome in the low half, and no other syndrome
register. -/
theorem raiseHere_el2 {r : ExceptionRecord} (s : State) (h : r.target = .el2) (hdefined : r.unpredictableAsUndefined = false) :
    (raiseHere r s).esrEl1 = s.esrEl1 ∧ (raiseHere r s).esrEl3 = s.esrEl3 ∧
      loOf (raiseHere r s).esrEl2 = syndrome s.params (syndromeInputs s) r (Config.freeValue s.draws) := by
  obtain ⟨hesr1, hesr2, hesr3⟩ := enterException_el2 { s with preferredReturn := s.pc } h
  refine ⟨hesr1, hesr3, ?_⟩
  rw [raiseHere, hesr2, esrHigherEntry, loOf_append, hdefined]
  rfl

/-- EC is the highest field of a syndrome (R61). -/
theorem syndrome_ec {p : Params} {g : SyndromeInputs} {r : ExceptionRecord} {ec : BitVec 6} (d : Word)
    (h : ecOfRecord p g r = some ec) : (syndrome p g r d).extractLsb' 26 6 = ec := by
  simp +decide only [syndrome, h, Option.getD_some, extractLsb'_append_eq_of_le]
  simp

/-- The ISS is the lowest field of a syndrome (R61). -/
theorem syndrome_iss (p : Params) (g : SyndromeInputs) (r : ExceptionRecord) (d : Word) :
    (syndrome p g r d).extractLsb' 0 25 = issOfRecord p g r d := by
  simp +decide only [syndrome, extractLsb'_append_eq_of_add_le]
  simp

/-- Bit [13] of a register is bit [13] of the ISS in its low half. -/
theorem bit13_eq_issField (v : Word) : v.getLsbD 13 = (issField ((loOf v).extractLsb' 0 25) 13 13).getLsbD 0 := by
  simp [issField, loOf]

/-- VNCR is bit [13] of the Data Abort layout (R121). -/
theorem issDabt_vncr (p : Params) (g : SyndromeInputs) (r : ExceptionRecord) (ea : BitVec 1) (d : Word) :
    issField (issDabt p g r ea d) 13 13 = vncrBit p r := by
  simp +decide only [issField, issDabt, extractLsb'_append_eq_of_le, extractLsb'_append_eq_of_add_le]
  simp

/-- VNCR is bit [13] of the Watchpoint layout (R153). -/
theorem issWpt_vncr (p : Params) (r : ExceptionRecord) : issField (issWpt p r) 13 13 = vncrBit p r := by
  simp +decide only [issField, issWpt, extractLsb'_append_eq_of_le, extractLsb'_append_eq_of_add_le]
  simp

/-- The record of a fault on the NVMem access is a Watchpoint where the environment's is, and a Data Abort otherwise. -/
theorem nvFaultRecord_cls (r : ExceptionRecord) (isWrite : Bool) (s : State) :
    (r.cls = .watchpoint ∧ (nvFaultRecord r isWrite s).cls = .watchpoint) ∨
      (r.cls ≠ .watchpoint ∧ (nvFaultRecord r isWrite s).cls = .dataAbort) := by
  by_cases h : r.cls = .watchpoint <;> simp [nvFaultRecord, h]

/-- A fault on the NVMem access has VNCR 1, under either class (R121, R153). -/
theorem nvFaultRecord_vncr {s : State} (hnv2 : s.params.haveNv2 = true) (g : SyndromeInputs) (r : ExceptionRecord) (isWrite : Bool)
    (d : Word) : issField (issOfRecord s.params g (nvFaultRecord r isWrite s) d) 13 13 = 1 := by
  have hbit : vncrBit s.params (nvFaultRecord r isWrite s) = 1 := by simp [vncrBit, hnv2, nvFaultRecord]
  rcases nvFaultRecord_cls r isWrite s with ⟨-, hcls⟩ | ⟨-, hcls⟩ <;> simp only [issOfRecord, layoutOfRecord, hcls]
  · exact (issWpt_vncr ..).trans hbit
  · exact (issDabt_vncr ..).trans hbit

/-- A fault on the NVMem access from EL1 comes from a lower level than its target (R180(b)). -/
theorem nvFaultRecord_ec {s : State} (hel : s.pstateEl = .el1) (p : Params) (g : SyndromeInputs) (r : ExceptionRecord)
    (isWrite : Bool) :
    ecOfRecord p g (nvFaultRecord r isWrite s) = some (if r.cls = .watchpoint then 0x34 else 0x24) := by
  have lower : (nvFaultRecord r isWrite s).fromEl ≠ (nvFaultRecord r isWrite s).target := by simp [nvFaultRecord, hel]
  rcases nvFaultRecord_cls r isWrite s with ⟨h, hcls⟩ | ⟨h, hcls⟩ <;> simp [ecOfRecord, hcls, lowerOrSame, lower, h]

/-- Settles O18: the record goes to EL2, with VNCR 1 because memory is reached under HCR_EL2.NV2 alone. -/
theorem nvMemFaultGoesToEl2 : Obligations.NvMemFaultGoesToEl2 := by
  intro i s r hreach h8 hle hfault hp
  obtain ⟨hel, -, hbits⟩ := reachOf_mem_or_trap (.inl hreach)
  obtain ⟨-, hnv2⟩ := hbits hreach
  have hnv2 : s.params.haveNv2 = true := by
    simp only [hcrNv2, Bool.and_eq_true] at hnv2
    exact hnv2.1
  have hexec : exec i s = .next (raiseHere (nvFaultRecord r (!i.isRead) s) s) := by
    rw [exec_eq_nvFault hreach ((nvBaseValid_iff s.params).mpr ⟨h8, hle⟩) hfault, nvFault, hp]
  obtain ⟨hesr1, hesr3, hsyn⟩ := raiseHere_el2 (r := nvFaultRecord r (!i.isRead) s) s rfl rfl
  refine ⟨_, hexec, raiseHere_entered s (by simp [nvFaultRecord]), hesr1, hesr3, ?_, ?_⟩
  · rw [bit13_eq_issField, hsyn, syndrome_iss, nvFaultRecord_vncr hnv2]
    rfl
  · rw [ecOf_eq_loOf, hsyn, syndrome_ec _ (nvFaultRecord_ec hel ..)]

end Sys2Proof.Machine
end

section
/-! A read and a write of register ESR_EL1 at EL3 with E2H (R47, R48, R235): what each access leaves in the window, and what the other
may see. -/

namespace Sys2Proof.Machine

/-- An accessor that has completed stays at EL3 with both names. -/
theorem TwoNamesAtEl3.of_completed {s t : State} (h : TwoNamesAtEl3 s) (hdone : Completed s t) : TwoNamesAtEl3 t := by
  obtain ⟨-, hel, -, -, hparams, henv, -⟩ := hdone
  exact h.congr hel ⟨hparams, henv⟩

/-- A read by either name, at EL3 with both, is a read of register ESR_EL1. -/
theorem TwoNamesAtEl3.exec_read {s : State} (h : TwoNamesAtEl3 s) {n : EsrName} (hn : n ≠ .esrEl2) (rt : BitVec 5) :
    exec (accessor true n rt) s = .next (readEsrEl1 n rt s) := by
  simpa using exec_eq_readEsrEl1 (accessor_isRead true n rt) (h.reachOf hn true rt)

theorem readEsrEl1_completed (n : EsrName) (rt : BitVec 5) (s : State) : Completed s (readEsrEl1 n rt s) := by
  obtain ⟨-, -, hdone⟩ := readEsrEl1_frame n rt s
  exact hdone

/-- A register other than number 31 holds what the read saw. -/
theorem readX_readEsrEl1_of_seen {n : EsrName} {rt : BitVec 5} {s : State} {v : Word} (h31 : rt ≠ 31)
    (hseen : contentSeen n s = .known v) : readX (readEsrEl1 n rt s) rt = v := by
  rw [readX_readEsrEl1_same, if_pos ((toNat_lt_31_iff rt).mpr h31), hseen, valueOf]

/-- The first write of a window stores its value, joins the window alone, and changes no general-purpose register. -/
theorem exec_first_write {s : State} (h3 : TwoNamesAtEl3 s) (hclosed : s.window = windowClosed) {n : EsrName} (hn : n ≠ .esrEl2)
    (rt : BitVec 5) (hec : ecDefined s.params (ecOf (readX s rt)) = true) :
    ∃ t, exec (accessor false n rt) s = .next t ∧ t.esrEl1 = .known (storedBits s.params (readX s rt)) ∧
      t.window = ⟨s.esrEl1, [.write n (.known (storedBits s.params (readX s rt)))]⟩ ∧ SameRegisters s t ∧ Completed s t := by
  have hrace : writeRaces n rt s = false := by simp [writeRaces, hclosed, overtakable_windowClosed]
  obtain ⟨hstored, hx⟩ := storeEsrEl1_ordered (c := .known (storedBits s.params (readX s rt))) hrace
  obtain ⟨-, -, hdone⟩ := storeEsrEl1_frame n rt (.known (storedBits s.params (readX s rt))) s
  refine ⟨complete (storeEsrEl1 n rt (.known (storedBits s.params (readX s rt))) s), ?_, hstored, ?_,
    fun r => readX_congr hx r, hdone⟩
  · rw [exec_eq_writeEsrEl1 (accessor_isRead ..) (h3.reachOf hn false rt)]
    simp [writeEsrEl1, contentWritten_defined hec, overtakesUse_of_not_writeRaces hrace]
  · simp [windowAfterWrite, h3.inWindow, overtaken_of_not_writeRaces hrace, windowNow, hclosed, windowClosed, insertBehind,
      useRegister]

/-- What a read sees has every property that all contents have. -/
theorem contentSeen_of_allContents {P : EsrContent → Prop} {s : State} (h : allContents P s) (n : EsrName) : P (contentSeen n s) := by
  obtain ⟨hesr, hbefore, hwrites⟩ := h
  rcases contentSeen_cases n s with e | ⟨hopen, e | ⟨m, hm⟩⟩
  · rwa [e]
  · rw [e]
    exact hbefore hopen
  · exact hwrites m _ hm

/-- A read against one write by the other name that it takes effect before sees the content from before. -/
theorem contentSeen_of_overtaken {n m : EsrName} {c d : EsrContent} {s : State} (hwin : s.window = ⟨d, [.write n c]⟩)
    (hk : overtaken m none s ≠ 0) : contentSeen m s = d := by
  obtain ⟨k, hk⟩ := Nat.exists_eq_succ_of_ne_zero hk
  simp [contentSeen, hk, hwin, WindowAccess.isWrite, newestContent]

/-- After a read that took effect last, nothing is unordered against the next read by its name. -/
theorem readRaces_after_read {n : EsrName} {s : State} (hk : overtaken n none s = 0) (rt : BitVec 5) :
    readRaces n (readEsrEl1 n rt s) = false := by
  have newest : overtakable n none (windowAfterRead n rt s) = [] := by
    unfold windowAfterRead
    split
    · simp [overtakable, hk, insertBehind, WindowAccess.byName]
    · rfl
  rw [readRaces, readEsrEl1_window, newest, List.any_nil, Bool.and_false]

/-- Reads by one name do not go back (R49, R235): against one write by the other name, the first sees the content from before or the
second sees the register's. -/
theorem second_read_in_order {n m : EsrName} {c d : EsrContent} {s : State} (hwin : s.window = ⟨d, [.write n c]⟩) (rt : BitVec 5) :
    contentSeen m s = d ∨ contentSeen m (readEsrEl1 m rt s) = s.esrEl1 := by
  by_cases hk : overtaken m none s = 0
  · exact .inr ((contentSeen_ordered (readRaces_after_read hk rt)).trans (readEsrEl1_esrEl1 ..))
  · exact .inl (contentSeen_of_overtaken hwin hk)

/-- Two reads by one name against one write by the other: each sees the content from before or the one written, and the second does
not go back. -/
theorem exec_two_reads {s : State} (h3 : TwoNamesAtEl3 s) {n m : EsrName} (hm : m ≠ .esrEl2) {v w : Word}
    (hesr : s.esrEl1 = .known w) (hwin : s.window = ⟨.known v, [.write n (.known w)]⟩) {b c : BitVec 5} (hb : b ≠ 31) (hc : c ≠ 31)
    (hbc : b ≠ c) :
    ∃ t u, exec (accessor true m b) s = .next t ∧ exec (accessor true m c) t = .next u ∧ u.esrEl1 = .known w ∧
      (readX u b = v ∨ readX u b = w) ∧ (readX u c = v ∨ readX u c = w) ∧ (readX u b = w → readX u c = w) := by
  have h3t := h3.of_completed (readEsrEl1_completed m b s)
  have oldOrNew : allContents (fun e => e = .known v ∨ e = .known w) s := by simp [allContents, hesr, hwin]
  have firstSees := contentSeen_of_allContents oldOrNew m
  have secondSees := contentSeen_of_allContents (readEsrEl1_allContents oldOrNew m b) m
  have keeps := readX_readEsrEl1_other m (readEsrEl1 m b s) hbc
  refine ⟨_, _, h3.exec_read hm b, h3t.exec_read hm c, by simpa using hesr, ?_, ?_, fun hw => ?_⟩
  · rw [keeps]
    exact firstSees.imp (readX_readEsrEl1_of_seen hb) (readX_readEsrEl1_of_seen hb)
  · exact secondSees.imp (readX_readEsrEl1_of_seen hc) (readX_readEsrEl1_of_seen hc)
  · rcases second_read_in_order (m := m) hwin b with hold | hlast
    · have same : v = w := by rw [← hw, keeps, readX_readEsrEl1_of_seen hb hold]
      exact readX_readEsrEl1_of_seen hc (secondSees.elim (same ▸ ·) id)
    · exact readX_readEsrEl1_of_seen hc (hlast.trans hesr)

/-- The first read of a window sees the register's content and joins the window alone. -/
theorem exec_first_read {s : State} (h3 : TwoNamesAtEl3 s) (hclosed : s.window = windowClosed) {n : EsrName} (hn : n ≠ .esrEl2)
    {rt : BitVec 5} (h31 : rt ≠ 31) {v : Word} (hv : s.esrEl1 = .known v) :
    ∃ t, exec (accessor true n rt) s = .next t ∧ readX t rt = v ∧ t.window.order = [.read n rt true false] ∧
      SameRegistersBut rt s t ∧ Completed s t := by
  have hrace : readRaces n s = false := by simp [readRaces, hclosed, overtakable_windowClosed]
  refine ⟨_, h3.exec_read hn rt, readX_readEsrEl1_of_seen h31 ((contentSeen_ordered hrace).trans hv), ?_,
    fun r hr => readX_readEsrEl1_other n s hr, readEsrEl1_completed n rt s⟩
  simpa [windowAfterRead, h3.inWindow, hclosed, windowClosed, insertBehind, overwriteRegister] using h31

/-- The value a register has after a write of `w` took effect before the read that filled it, or after. -/
theorem readX_reviseReads_one {n : EsrName} {rt : BitVec 5} {used : Bool} (w : Word) (k : Nat) (h31 : rt ≠ 31) (s : State) :
    readX (reviseReads (.known w) ([.read n rt true used].take k).reverse s) rt = readX s rt ∨
      readX (reviseReads (.known w) ([.read n rt true used].take k).reverse s) rt = w := by
  cases k with
  | zero => exact .inl rfl
  | succ k =>
    have hfill := readX_writeX_same s rt w
    rw [if_pos ((toNat_lt_31_iff rt).mpr h31)] at hfill
    rw [List.take_succ_cons, List.take_nil, List.reverse_singleton]
    exact .inr hfill

/-- A write after one unused read by the other name stores its value; the register that the read filled keeps it or takes the value
written, and no other register changes. -/
theorem exec_write_after_read {s : State} (h3 : TwoNamesAtEl3 s) {n m : EsrName} (hn : n ≠ .esrEl2) (a : BitVec 5) {b : BitVec 5}
    (h31 : b ≠ 31) (hwin : s.window.order = [.read m b true false]) (hec : ecDefined s.params (ecOf (readX s a)) = true) :
    ∃ u, exec (accessor false n a) s = .next u ∧ u.esrEl1 = .known (storedBits s.params (readX s a)) ∧
      (readX u b = readX s b ∨ readX u b = storedBits s.params (readX s a)) ∧ SameRegistersBut b s u := by
  have unused : overtakesUse n a s = false := by
    rw [overtakesUse, List.any_eq_false.mpr, Bool.and_false]
    intro x hx
    obtain rfl : x = .read m b true false := by simpa [hwin] using List.takeWhile_subset _ hx
    simp [WindowAccess.isUsed]
  have noWrite : (s.window.order.take (overtaken n (some a) s)).any (·.isWrite) = false := by
    rw [List.any_eq_false]
    intro x hx
    obtain rfl : x = .read m b true false := by simpa [hwin] using List.mem_of_mem_take hx
    simp [WindowAccess.isWrite]
  have regs := fun r => readX_congr (complete_x (storeEsrEl1 n a (.known (storedBits s.params (readX s a))) s)) r
  refine ⟨complete (storeEsrEl1 n a (.known (storedBits s.params (readX s a))) s), ?_, newestContent_of_no_write noWrite, ?_,
    fun r hr => ?_⟩
  · rw [exec_eq_writeEsrEl1 (accessor_isRead ..) (h3.reachOf hn false a)]
    simp [writeEsrEl1, contentWritten_defined hec, unused]
  · rw [regs, readX_congr (storeEsrEl1_x ..), hwin]
    exact readX_reviseReads_one _ _ h31 s
  · rw [regs, readX_congr (storeEsrEl1_x ..)]
    refine readX_reviseReads_other (fun n' u hread => ?_) s
    have := List.mem_of_mem_take (List.mem_reverse.mp hread)
    simp [hwin, hr] at this

/-- A write that takes its value from the register a read filled depends on the read, so nothing is unordered against it (log 14). -/
theorem writeRaces_of_feeding_read {n m : EsrName} {b : BitVec 5} {s : State} (hwin : s.window.order = [.read m b true false]) :
    writeRaces n b s = false := by
  simp [writeRaces, overtakable, hwin, WindowAccess.feeds]

/-- Settles O24: reads after the first write of a window, and a write after its first read, from another register or from the one
the read filled. -/
theorem crossNameReadSeesNewOrOld : Obligations.CrossNameReadSeesNewOrOld := by
  intro n a b c s v hn hel hen he2h hclosed hv hec hb hc hbc
  have h3 : TwoNamesAtEl3 s := ⟨hel, hen, he2h⟩
  have hm := otherName_ne_esrEl2 n
  obtain ⟨t, hread, hvalue, hwin, hothers, hdone⟩ := exec_first_read h3 hclosed hm hb hv
  have h3t := h3.of_completed hdone
  obtain ⟨-, -, -, -, hparams, -⟩ := hdone
  refine ⟨?_, fun hab => ?_, fun hecV => ?_⟩
  · obtain ⟨t', hwrite, hesr, hwin', -, hdone'⟩ := exec_first_write h3 hclosed hn a hec
    obtain ⟨u, u', hreads⟩ := exec_two_reads (h3.of_completed hdone') hm hesr (hv ▸ hwin') hb hc hbc
    obtain ⟨hfirst, hsecond, hkept, hsees⟩ := hreads
    exact ⟨t', u, u', _, hwrite, hfirst, hsecond, hkept, storedBits_stores .., hsees⟩
  · obtain ⟨u, hwrite, hesr, hfilled, hregs⟩ := exec_write_after_read h3t hn a hb hwin (by rwa [hparams, hothers a hab])
    rw [hparams, hothers a hab] at hesr hfilled
    exact ⟨t, u, _, hread, hwrite, hesr, storedBits_stores .., hvalue ▸ hfilled, fun r hr => (hregs r hr).trans (hothers r hr)⟩
  · obtain ⟨u, w, hwrite, hesr, hstores, hregs, -⟩ := msrWritesEsrEl1 (accessor false n b) t (accessor_isRead ..)
      (h3t.reachOf hn false b) (by rwa [accessor_rt, hvalue, hparams]) (by simpa using writeRaces_of_feeding_read hwin)
    rw [accessor_rt, hvalue, hparams] at hstores
    exact ⟨t, u, w, hread, hwrite, hesr, hstores, (hregs b).trans hvalue, fun r hr => (hregs r).trans (hothers r hr)⟩

/-- Settles O25: the write alone stands in the window, which a synchronization closes and which a read by its name comes after. -/
theorem synchronizedReadSeesNew : Obligations.SynchronizedReadSeesNew := by
  intro n m a rt s hn hm hel hen he2h hclosed hec
  have h3 : TwoNamesAtEl3 s := ⟨hel, hen, he2h⟩
  obtain ⟨t, hexec, hesr, hwin, -, hdone⟩ := exec_first_write h3 hclosed hn a hec
  have h3t := h3.of_completed hdone
  have h3sync : TwoNamesAtEl3 (contextSync t) := h3t
  have hsync : readRaces m (contextSync t) = false := by simp [readRaces, overtakable_windowClosed]
  have hsame : readRaces n t = false := by simp [readRaces, overtakable, hwin, WindowAccess.byName]
  exact ⟨t, _, hexec, hesr, storedBits_stores ..,
    ⟨contextSync t, _, rfl, h3sync.exec_read hm rt, fun h31 => readX_readEsrEl1_of_seen h31 ((contentSeen_ordered hsync).trans hesr)⟩,
    ⟨_, h3t.exec_read hn rt, fun h31 => readX_readEsrEl1_of_seen h31 ((contentSeen_ordered hsame).trans hesr)⟩⟩

end Sys2Proof.Machine
end

section
/-! When a step goes on: the decoded accessor runs, and an accessor has a next state unless the spec stops it (R42, R44, R47, R213). -/

namespace Sys2Proof.Machine

/-- Settles O5: an aligned `pc` lets the word run, and decoding has succeeded. -/
theorem stepRunsTheDecodedInstruction : Obligations.StepRunsTheDecodedInstruction := by
  intro s w rest i hin hpc hdec _
  have halign : pcAligned { s with inputs := rest } = true := (pcAligned_iff _).mpr hpc
  simp [step, hin, runWord, halign, hdec]

/-- A write of register ESR_EL1 is refused as unordered wherever it would write (R47, log 14). -/
theorem writeEsrEl1_unordered {n : EsrName} {rt : BitVec 5} {s : State}
    (hec : ecDefined s.params (ecOf (readX s rt)) = true ∨ s.params.cuReservedEc ≠ .refuse) (huse : overtakesUse n rt s = true) :
    writeEsrEl1 n rt s = .refused .unordered := by
  rcases writeEsrEl1_cases n rt s with ⟨c, -, hfree, -⟩ | ⟨-, he⟩ | ⟨hreserved, hrefuse, -⟩
  · simp [huse] at hfree
  · exact he
  · rcases hec with h | h
    · simp [hreserved] at h
    · exact absurd hrefuse h

/-- A write of register ESR_EL1 has a next state unless it is refused for a reserved EC (R213) or a use (R47). -/
theorem writeEsrEl1_proceeds {n : EsrName} {rt : BitVec 5} {s : State}
    (hec : s.params.cuReservedEc = .refuse → ecDefined s.params (ecOf (readX s rt)) = true) (huse : overtakesUse n rt s = false) :
    ∃ t, writeEsrEl1 n rt s = .next t := by
  rcases writeEsrEl1_cases n rt s with ⟨c, -, -, he⟩ | ⟨hused, -⟩ | ⟨hreserved, hrefuse, -⟩
  · exact ⟨_, he⟩
  · simp [huse] at hused
  · simp [hec hrefuse] at hreserved

/-- An accessor that reaches NVMem at a valid base has a next state unless the access faults in its direction. -/
theorem exec_mem_proceeds {i : Instr} {s : State} (hreach : reachOf i s = .mem) (hbase : nvBaseValid s.params = true)
    (hfault : (if i.isRead then s.env.nvReadFault else s.env.nvWriteFault) = none) : ∃ t, exec i s = .next t := by
  cases hread : i.isRead <;> rw [hread] at hfault
  · exact ⟨_, exec_stores_nvCell hread hreach hbase hfault⟩
  · exact ⟨_, exec_reads_nvCell hread hreach hbase hfault⟩

/-- Settles O60, by what the accessor reaches: only a write of register ESR_EL1 and an NVMem access can stop. -/
theorem accessorsProceed : Obligations.AccessorsProceed := by
  intro i s
  refine ⟨fun hec hmem huse => ?_, fun hwrite hreach hec huse => ?_⟩
  · cases hreach : reachOf i s with
    | reg1 =>
      cases hread : i.isRead
      · rw [exec_eq_writeEsrEl1 hread hreach]
        exact writeEsrEl1_proceeds (hec hread hreach) (huse hread hreach)
      · exact ⟨_, exec_eq_readEsrEl1 hread hreach⟩
    | reg2 =>
      rw [exec_eq_outcomeOf, hreach, outcomeOf]
      split
      · exact ⟨_, rfl⟩
      · exact ⟨_, rfl⟩
    | mem =>
      obtain ⟨h8, hle, hfault⟩ := hmem hreach
      exact exec_mem_proceeds hreach ((nvBaseValid_iff s.params).mpr ⟨h8, hle⟩) hfault
    | trap => exact ⟨systemAccessTrap i.name i.isRead i.rt s, by rw [exec_eq_outcomeOf, hreach, outcomeOf]⟩
    | undef => exact ⟨undefinedAccess s, by rw [exec_eq_outcomeOf, hreach, outcomeOf]⟩
  · rw [exec_eq_writeEsrEl1 hwrite hreach]
    exact writeEsrEl1_unordered hec huse

end Sys2Proof.Machine
end

section
/-! The encoding of the six accessors (R54, R55, R58): decoding inverts encoding, word by word, and the six rows of the opcode table. -/

namespace Sys2Proof

@[simp] theorem name_accessor (b : Bool) (n : EsrName) (t : BitVec 5) : (accessor b n t).name = n := by
  cases n <;> cases b <;> rfl

@[simp] theorem isRead_accessor (b : Bool) (n : EsrName) (t : BitVec 5) : (accessor b n t).isRead = b := by
  cases n <;> cases b <;> rfl

@[simp] theorem rt_accessor (b : Bool) (n : EsrName) (t : BitVec 5) : (accessor b n t).rt = t := by
  cases n <;> cases b <;> rfl

/-- The word of an accessor holds the fields of R55, each in its place. -/
theorem encode_fields (i : Instr) : Laws.Encoded.Statement i := by
  cases i with
  | mrsEsrEl1 t => exact Laws.Encoded.mrsEsrEl1 t
  | msrEsrEl1 t => exact Laws.Encoded.msrEsrEl1 t
  | mrsEsrEl12 t => exact Laws.Encoded.mrsEsrEl12 t
  | msrEsrEl12 t => exact Laws.Encoded.msrEsrEl12 t
  | mrsEsrEl2 t => exact Laws.Encoded.mrsEsrEl2 t
  | msrEsrEl2 t => exact Laws.Encoded.msrEsrEl2 t

/-- A tuple selects a name exactly when it is the tuple of that name (R54). -/
theorem nameOfTuple_eq_some {op0 : BitVec 2} {op1 : BitVec 3} {crn crm : BitVec 4} {op2 : BitVec 3} {n : EsrName} :
    nameOfTuple op0 op1 crn crm op2 = some n ↔
      op0 = tupleOp0 ∧ op1 = n.op1 ∧ crn = tupleCrn ∧ crm = tupleCrm ∧ op2 = tupleOp2 := by
  have hop1 : ∀ (op1 : BitVec 3) (n : EsrName),
      nameOfTuple tupleOp0 op1 tupleCrn tupleCrm tupleOp2 = some n ↔ op1 = n.op1 := by
    intro op1 n
    cases n <;> revert op1 <;> decide
  by_cases hfixed : op0 = tupleOp0 ∧ crn = tupleCrn ∧ crm = tupleCrm ∧ op2 = tupleOp2
  · obtain ⟨rfl, rfl, rfl, rfl⟩ := hfixed
    simp [hop1]
  · rw [nameOfTuple, if_neg hfixed]
    exact ⟨fun h => by simp at h, fun ⟨h0, _, hn, hm, h2⟩ => absurd ⟨h0, hn, hm, h2⟩ hfixed⟩

/-- A word decodes to the accessor that its fields give, where the fixed bits are those of an MRS or MSR (register) and the tuple is a
name's (R54, R55). -/
theorem decode_eq_ok {w : InstrWord} {i : Instr} :
    decode w = .ok i ↔
      w.extractLsb' 22 10 = fixedBits ∧
        ∃ n, nameOfTuple (w.extractLsb' 19 2) (w.extractLsb' 16 3) (w.extractLsb' 12 4) (w.extractLsb' 8 4) (w.extractLsb' 5 3) =
            some n ∧ accessor (decide (w.extractLsb' 21 1 = 1)) n (w.extractLsb' 0 5) = i := by
  unfold decode
  split
  · next hfixed =>
    split
    · next n hn => simp [hfixed, hn]
    · next hn => simp [hn]
  · next hfixed => simp [hfixed]

/-- The word's fields are the accessor's, and its tuple selects the accessor's name (R54 to R56). -/
theorem decode_encode (i : Instr) : decode (encode i) = .ok i := by
  obtain ⟨hfixed, hread, hop0, hop1, hcrn, hcrm, hop2, hrt, hacc⟩ := encode_fields i
  refine decode_eq_ok.mpr ⟨hfixed, i.name, nameOfTuple_eq_some.mpr ⟨hop0, hop1, hcrn, hcrm, hop2⟩, ?_⟩
  rw [hread, hrt]
  cases hb : i.isRead <;> rw [hb] at hacc <;> exact hacc

/-- Settles O1: every term is well formed, so none is left out. -/
theorem decodeOfEncode : Obligations.DecodeOfEncode := fun i _ => decode_encode i

/-- The eight fields of R55 are the whole word. -/
theorem append_fields (w : InstrWord) :
    w.extractLsb' 22 10 ++ w.extractLsb' 21 1 ++ w.extractLsb' 19 2 ++ w.extractLsb' 16 3 ++ w.extractLsb' 12 4 ++
      w.extractLsb' 8 4 ++ w.extractLsb' 5 3 ++ w.extractLsb' 0 5 = w := by
  simp (disch := decide) only [BitVec.extractLsb'_append_extractLsb'_eq_extractLsb', BitVec.extractLsb'_eq_self]

/-- The direction bit is 1 exactly for a read. -/
theorem ofBool_decide_eq_one (b : BitVec 1) : BitVec.ofBool (decide (b = 1)) = b := by
  revert b; decide

/-- Settles O2: decoding looks at every field, and the fields are the whole word. -/
theorem encodeOfDecode : Obligations.EncodeOfDecode := by
  intro w i h
  obtain ⟨hfixed, n, hname, rfl⟩ := decode_eq_ok.mp h
  obtain ⟨hop0, hop1, hcrn, hcrm, hop2⟩ := nameOfTuple_eq_some.mp hname
  calc encode (accessor (decide (w.extractLsb' 21 1 = 1)) n (w.extractLsb' 0 5))
      = w.extractLsb' 22 10 ++ w.extractLsb' 21 1 ++ w.extractLsb' 19 2 ++ w.extractLsb' 16 3 ++ w.extractLsb' 12 4 ++
          w.extractLsb' 8 4 ++ w.extractLsb' 5 3 ++ w.extractLsb' 0 5 := by
        rw [encode, isRead_accessor, name_accessor, rt_accessor, ofBool_decide_eq_one, hfixed, hop0, hop1, hcrn, hcrm, hop2]
    _ = w := append_fields w

/-! ### The rows of the opcode table -/

/-- A word decodes exactly when it is the word of an accessor. -/
theorem decode_eq_ok_iff_encode {w : InstrWord} {i : Instr} : decode w = .ok i ↔ w = encode i := by
  refine ⟨fun h => (encodeOfDecode w i h).symm, ?_⟩
  rintro rfl
  exact decode_encode i

/-- An accessor's word is its row, the upper 27 bits, and the operand number (R55, R56). -/
theorem encode_accessor (b : Bool) (n : EsrName) (t : BitVec 5) :
    encode (accessor b n t) = (encode (accessor b n 0)).extractLsb' 5 27 ++ t := by
  cases n <;> cases b <;> revert t <;> decide

/-- The mask of the table clears the operand and nothing else. -/
theorem and_rowMask (h : BitVec 27) (t : BitVec 5) : (h ++ t : InstrWord) &&& 0xFFFFFFE0 = h ++ (0 : BitVec 5) := by
  have hmask : (0xFFFFFFE0 : InstrWord) = BitVec.allOnes 27 ++ (0 : BitVec 5) := by decide
  rw [hmask, BitVec.and_append, BitVec.and_allOnes]
  simp

/-- The word of some accessor of a direction and a name, whatever its operand: what the mask of the table tests. -/
theorem and_rowMask_eq_iff {w : InstrWord} {b : Bool} {n : EsrName} :
    w &&& 0xFFFFFFE0 = encode (accessor b n 0) ↔ ∃ t, w = encode (accessor b n t) := by
  have hw : w.extractLsb' 5 27 ++ w.extractLsb' 0 5 = w :=
    (BitVec.extractLsb'_append_extractLsb'_eq_extractLsb' rfl).trans BitVec.extractLsb'_eq_self
  constructor
  · intro h
    refine ⟨w.extractLsb' 0 5, ?_⟩
    rw [← hw, and_rowMask] at h
    rw [encode_accessor, ← h, BitVec.extractLsb'_append_eq_left, hw]
  · rintro ⟨t, rfl⟩
    rw [encode_accessor b n t, and_rowMask, ← encode_accessor]

/-- Every accessor is one of a direction and a name with an operand. -/
theorem eq_accessor (i : Instr) : i = accessor i.isRead i.name i.rt := by
  cases i <;> rfl

/-- The six rows of the table are the words of the six accessors with operand 0 (R55). -/
theorem mem_rows_iff {v : InstrWord} :
    v ∈ [(0xD5385200 : InstrWord), 0xD5185200, 0xD53D5200, 0xD51D5200, 0xD53C5200, 0xD51C5200] ↔
      ∃ b n, v = encode (accessor b n 0) := by
  have hrows : [(0xD5385200 : InstrWord), 0xD5185200, 0xD53D5200, 0xD51D5200, 0xD53C5200, 0xD51C5200] =
      [EsrName.esrEl1, .esrEl12, .esrEl2].flatMap fun n => [encode (accessor true n 0), encode (accessor false n 0)] := by
    decide
  rw [hrows]
  constructor
  · intro h
    obtain ⟨n, -, h⟩ := List.mem_flatMap.mp h
    rcases List.mem_pair.mp h with h | h
    · exact ⟨true, n, h⟩
    · exact ⟨false, n, h⟩
  · rintro ⟨b, n, rfl⟩
    refine List.mem_flatMap.mpr ⟨n, by cases n <;> simp, ?_⟩
    cases b <;> simp

/-- Settles O3: a word decodes when it is an accessor's word, so when its row is. -/
theorem decodesExactlyTheSixRows : Obligations.DecodesExactlyTheSixRows := by
  intro w
  rw [mem_rows_iff]
  constructor
  · rintro ⟨i, h⟩
    rw [decode_eq_ok_iff_encode, eq_accessor i] at h
    exact ⟨i.isRead, i.name, and_rowMask_eq_iff.mpr ⟨i.rt, h⟩⟩
  · rintro ⟨b, n, h⟩
    obtain ⟨t, ht⟩ := and_rowMask_eq_iff.mp h
    exact ⟨accessor b n t, decode_eq_ok_iff_encode.mpr ht⟩

/-- Settles O4: each word is the word of its accessor. -/
theorem writtenWordsDecode : Obligations.WrittenWordsDecode := by
  simp only [Obligations.WrittenWordsDecode, decode_eq_ok_iff_encode]
  decide

/-- Settles O6: a word outside the six rows does not decode, and at an aligned `pc` the decoder's error is the refusal. -/
theorem otherWordsAreRefused : Obligations.OtherWordsAreRefused := by
  intro s w rest hin hpc hrow
  have halign : Machine.pcAligned { s with inputs := rest } = true := (Machine.pcAligned_iff _).mpr hpc
  cases hdec : decode w with
  | ok i => exact absurd ((decodesExactlyTheSixRows w).mp ⟨i, hdec⟩) hrow
  | error e => exact ⟨e, by simp [Machine.step, hin, Machine.runWord, halign, hdec]⟩

end Sys2Proof
end

section
/-! The syndrome as EC, IL and ISS (R61), the EC table (R62, R213) and IL (R215). -/

namespace Sys2Proof.Machine

open BitVec (extractLsb'_append_eq_of_le extractLsb'_append_eq_of_add_le)

/-! ### Composition (R61) -/

/-- The fields of a register value whose low half is EC, IL and ISS put together. -/
theorem fields_append (hi : BitVec 32) (ec : BitVec 6) (il : BitVec 1) (iss : BitVec 25) :
    ecOf (hi ++ (ec ++ il ++ iss)) = ec ∧ ilOf (hi ++ (ec ++ il ++ iss)) = il ∧ issOf (hi ++ (ec ++ il ++ iss)) = iss := by
  simp +decide only [ecOf, ilOf, issOf, extractLsb'_append_eq_of_le, extractLsb'_append_eq_of_add_le]
  simp

/-- The number of two words put together. -/
theorem toNat_append_eq_add {m n : ℕ} (a : BitVec m) (b : BitVec n) : (a ++ b).toNat = a.toNat * 2 ^ n + b.toNat := by
  rw [BitVec.toNat_append, ← Nat.shiftLeft_add_eq_or_of_lt b.isLt, Nat.shiftLeft_eq]

/-- The number that EC, IL and ISS make together. -/
theorem toNat_fields (ec : BitVec 6) (il : BitVec 1) (iss : BitVec 25) :
    (ec ++ il ++ iss).toNat = ec.toNat * 2 ^ 26 + il.toNat * 2 ^ 25 + iss.toNat := by
  rw [toNat_append_eq_add, toNat_append_eq_add]
  omega

/-- Settles O31: with an EC value the syndrome is the three fields put together. -/
theorem syndromeComposition : Obligations.SyndromeComposition := by
  intro p g r d ec hec
  have hsyn : syndrome p g r d = ec ++ ilOfRecord p g r d ++ issOfRecord p g r d := by
    rw [syndrome, hec, Option.getD_some]
  obtain ⟨hecOf, hilOf, hissOf⟩ := fields_append 0 ec (ilOfRecord p g r d) (issOfRecord p g r d)
  rw [hsyn]
  exact ⟨hecOf, hilOf, hissOf, hiOf_append .., toNat_fields ..⟩

/-! ### The EC values (R62, R213) -/

theorem layoutOfEc_eq_some {p : Params} {ec : BitVec 6} {l : IssLayout} :
    layoutOfEc p ec = some l ↔ ecImplemented p ec = true ∧ ecTable.lookup ec = some l := by
  unfold layoutOfEc
  split <;> simp_all

/-- An EC value is reserved when the table does not list it or the features do not define it. -/
theorem ecDefined_eq_false {p : Params} {ec : BitVec 6} :
    ecDefined p ec = false ↔ ecTable.lookup ec = none ∨ ecImplemented p ec = false := by
  unfold ecDefined layoutOfEc
  cases ecImplemented p ec <;> simp

/-- The table leaves out 33 values, the always reserved ones of R213. -/
theorem ecTable_lookup_eq_none {ec : BitVec 6} :
    ecTable.lookup ec = none ↔
      ec ∈ [(0x02 : BitVec 6), 0x08, 0x09, 0x0A, 0x0B, 0x0F, 0x10, 0x12, 0x13, 0x14, 0x16, 0x17, 0x1A, 0x1B, 0x1C, 0x1D, 0x1E, 0x1F,
        0x23, 0x27, 0x29, 0x2A, 0x2B, 0x2D, 0x2E, 0x36, 0x37, 0x39, 0x3A, 0x3B, 0x3D, 0x3E, 0x3F] := by
  revert ec; decide

/-- The four conditional values, each with its feature (R213). -/
theorem ecImplemented_eq_false {p : Params} {ec : BitVec 6} :
    ecImplemented p ec = false ↔
      (ec = 0x0D ∧ p.haveBti = false) ∨ (ec = 0x19 ∧ p.haveSve = false) ∨ ((ec = 0x28 ∨ ec = 0x2C) ∧ p.haveFpTraps = false) := by
  unfold ecImplemented
  split
  · next hec => subst hec; simp
  split
  · next hec => subst hec; simp
  split
  · next hec => rcases hec with rfl | rfl <;> simp
  · next hbti hsve htraps => simp only [hbti, hsve, htraps, false_and, or_self, reduceCtorEq]

/-- Settles O46: a value is reserved because the table leaves it out or because its feature is absent. -/
theorem reservedEcValues : Obligations.ReservedEcValues := by
  intro p ec
  rw [ecDefined_eq_false, ecTable_lookup_eq_none, ecImplemented_eq_false]

/-! ### The EC of a record (R182 to R212) -/

/-- What both values of a pair satisfy, the value of the pair does (R180(b)). -/
theorem lowerOrSame_of_both {P : BitVec 6 → Prop} {lower same : BitVec 6} (r : ExceptionRecord) (hl : P lower) (hs : P same) :
    P (lowerOrSame r lower same) := by
  unfold lowerOrSame
  split
  · exact hs
  · exact hl

/-- The table gives the EC of a record the layout its ISS is built with (R62). -/
theorem ecTable_lookup_ecOfRecord {p : Params} {g : SyndromeInputs} {r : ExceptionRecord} {ec : BitVec 6}
    (h : ecOfRecord p g r = some ec) : ecTable.lookup ec = some (layoutOfRecord p g r) := by
  cases hcls : r.cls <;> simp only [ecOfRecord, layoutOfRecord, hcls, Option.some.injEq, reduceCtorEq] at h ⊢ <;> subst h
  case fpAccess | sveAccess => split <;> decide
  case instAbort | dataAbort | breakpoint | vectorCatch | softwareStep | watchpoint =>
    exact lowerOrSame_of_both (P := fun ec => ecTable.lookup ec = some _) r (by decide) (by decide)
  all_goals decide

/-- The EC of a record the model takes is defined under the features: the class of a conditional value exists with its feature alone, and
an access to SVE without SVE has another value (R88, R213). -/
theorem ecImplemented_ecOfRecord {p : Params} {g : SyndromeInputs} {r : ExceptionRecord} {ec : BitVec 6}
    (hp : recordProblem p r = none) (h : ecOfRecord p g r = some ec) : ecImplemented p ec = true := by
  obtain ⟨-, hclass, -⟩ := recordProblem_none hp
  cases hcls : r.cls <;> simp only [ecOfRecord, hcls, Option.some.injEq, reduceCtorEq] at h <;> subst h
  case branchTarget | fpExcA32 | fpExcA64 => simpa [ecImplemented, classDefined, hcls] using hclass
  case fpAccess => split <;> rfl
  case sveAccess =>
    split
    · next hsve => simpa [ecImplemented] using hsve
    · rfl
  case instAbort | dataAbort | breakpoint | vectorCatch | softwareStep | watchpoint =>
    exact lowerOrSame_of_both (P := fun ec => ecImplemented p ec = true) r rfl rfl
  all_goals rfl

/-- Settles O45: the table lists the record's EC with its layout, and the features define it; the values are read class by class. -/
theorem ecSelectsTheLayout : Obligations.EcSelectsTheLayout := by
  intro p g r ec hp hec
  have hlayout : layoutOfEc p ec = some (layoutOfRecord p g r) :=
    layoutOfEc_eq_some.mpr ⟨ecImplemented_ecOfRecord hp hec, ecTable_lookup_ecOfRecord hec⟩
  refine ⟨hlayout, by rw [ecDefined, hlayout, Option.isSome_some], ?_⟩
  cases hcls : r.cls <;> simp only [ecOfRecord, hcls, Option.some.injEq, reduceCtorEq] at hec ⊢ <;> subst hec
  case fpAccess => simp [fpReportedUnknown]
  all_goals rfl

/-! ### IL (R215) -/

/-- A Data Abort taken to EL1 has ISV 0 (R115). -/
theorem dabtIsv_of_target_ne_el2 {p : Params} {g : SyndromeInputs} {r : ExceptionRecord} (h : r.target ≠ .el2) :
    dabtIsv p g r = .is false := by
  rw [dabtIsv, if_pos h]

/-- IL is 0 at EL1 only for an instruction of 16 bits, under an EC that neither forces IL nor is a Data Abort's (R215). -/
theorem ilOfRecord_eq_zero_at_el1 {p : Params} {g : SyndromeInputs} {r : ExceptionRecord} {d : Word} {ec : BitVec 6}
    (htarget : r.target = .el1) (hec : ecOfRecord p g r = some ec) (hil : ilOfRecord p g r d = 0) :
    r.instrLen = .bits16 ∧ ec ∉ ilForced ∧ ec ≠ 0x24 ∧ ec ≠ 0x25 := by
  have hisv : dabtIsv p g r = .is false := dabtIsv_of_target_ne_el2 (by simp [htarget])
  simp only [ilOfRecord, hec, hisv, isvBit, BitVec.ofBool_false, if_true] at hil
  split at hil
  · exact absurd hil (by decide)
  · next hforced =>
    split at hil
    · exact absurd hil (by simp)
    · next hdabt =>
      obtain ⟨h24, h25⟩ := not_or.mp hdabt
      refine ⟨?_, hforced, h24, h25⟩
      cases hlen : r.instrLen with
      | bits16 => rfl
      | bits32 => simp [lengthBit, hlen] at hil

/-- A record taken to EL1 has an EC value: the classes without one go to EL2 or EL3 (R214). -/
theorem ecOfRecord_at_el1 {p : Params} (g : SyndromeInputs) {r : ExceptionRecord} (hp : recordProblem p r = none)
    (htarget : r.target = .el1) : ∃ ec, ecOfRecord p g r = some ec := by
  obtain ⟨-, -, hclassTarget, -⟩ := recordProblem_none hp
  cases hcls : r.cls <;> simp only [ecOfRecord, hcls, Option.some.injEq, exists_eq', reduceCtorEq, exists_const]
  all_goals simp [classTargetOk, hcls, htarget] at hclassTarget

/-- A 16-bit instruction that a record the model takes to EL1 tells of is a T32 instruction at EL0 (R60, R215). -/
theorem t32_at_el0_of_bits16 {p : Params} {r : ExceptionRecord} (hp : recordProblem p r = none) (htarget : r.target = .el1)
    (hreads : readsInstruction p r = true) (hlen : r.instrLen = .bits16) :
    r.iset = .t32 ∧ r.fromState = .aarch32 ∧ r.fromEl = .el0 := by
  obtain ⟨-, -, -, hstate, -⟩ := recordProblem_none hp
  simp only [execStateOk, hreads, hlen, htarget] at hstate
  have hiset : r.iset = .t32 := by simp_all
  cases hfrom : r.fromState <;> simp_all

/-- A class that comes from AArch64 state only does not come from AArch32 state (section 2 of 60_exceptions.md). -/
theorem aarch64Class_of_aarch32 {p : Params} {r : ExceptionRecord} (hp : recordProblem p r = none) (hfrom : r.fromState = .aarch32) :
    aarch64Class r.cls = false := by
  obtain ⟨-, -, -, hstate, -⟩ := recordProblem_none hp
  cases hclass : aarch64Class r.cls with
  | false => rfl
  | true => simp [execStateOk, hclass, hfrom] at hstate

/-- An EC that leaves IL to the instruction's length belongs to a class that tells of its instruction; from AArch32 state it is one of
ten (R215). -/
theorem ec_of_il_free {p : Params} {g : SyndromeInputs} {r : ExceptionRecord} {ec : BitVec 6} (hec : ecOfRecord p g r = some ec)
    (hforced : ec ∉ ilForced) (h24 : ec ≠ 0x24) (h25 : ec ≠ 0x25) :
    readsInstruction p r = true ∧ (aarch64Class r.cls = false →
      ec ∈ [(0x01 : BitVec 6), 0x03, 0x04, 0x05, 0x06, 0x07, 0x0C, 0x11, 0x28, 0x38]) := by
  cases hcls : r.cls <;> simp only [ecOfRecord, readsInstruction, aarch64Class, hcls, Option.some.injEq, reduceCtorEq] at hec ⊢ <;>
    subst hec
  case unknownReason | illegalState | pcAlignment | spAlignment | sError => exact absurd (by decide) hforced
  case instAbort | breakpoint | vectorCatch | softwareStep | watchpoint =>
    exact absurd (lowerOrSame_of_both (P := (· ∈ ilForced)) r (by decide) (by decide)) hforced
  case dataAbort =>
    rcases lowerOrSame_of_both (P := fun ec => ec = 0x24 ∨ ec = 0x25) r (.inl rfl) (.inr rfl) with h | h
    · exact absurd h h24
    · exact absurd h h25
  case fpAccess =>
    split at hforced
    · exact absurd (by decide) hforced
    · next hreported => simp [hreported]
  case sveAccess => simp
  all_goals decide

/-- Settles O44: IL follows the instruction's length, which is 16 bits for T32 alone, and AArch32 state leaves ten of the EC values. -/
theorem ilZeroOnlyForT32 : Obligations.IlZeroOnlyForT32 := by
  intro p g r d hp htarget hil
  obtain ⟨ec, hec⟩ := ecOfRecord_at_el1 g hp htarget
  obtain ⟨hlen, hforced, h24, h25⟩ := ilOfRecord_eq_zero_at_el1 htarget hec hil
  obtain ⟨hreads, hten⟩ := ec_of_il_free hec hforced h24 h25
  obtain ⟨hiset, hfrom, hel⟩ := t32_at_el0_of_bits16 hp htarget hreads hlen
  exact ⟨hlen, hiset, hfrom, hel, ec, hec, hten (aarch64Class_of_aarch32 hp hfrom)⟩

end Sys2Proof.Machine
end

section
/-! What an UNDEFINED accessor leaves (R66, R163, R182), by the level that takes the exception. -/

namespace Sys2Proof.Machine

/-- An exception raised by the instruction and taken to EL1 writes ESR_EL1, the syndrome below zero, and no other syndrome register. -/
theorem raiseHere_el1 {r : ExceptionRecord} (s : State) (h : r.target = .el1) (hdefined : r.unpredictableAsUndefined = false) :
    (raiseHere r s).esrEl1 =
        .known ((0 : BitVec 32) ++ syndrome s.params (syndromeInputs s) r (Config.freeValue s.draws)) ∧
      (raiseHere r s).esrEl2 = s.esrEl2 ∧ (raiseHere r s).esrEl3 = s.esrEl3 := by
  obtain ⟨hesr1, hesr2, hesr3⟩ := enterException_el1 { s with preferredReturn := s.pc } h
  refine ⟨?_, hesr2, hesr3⟩
  rw [raiseHere, hesr1, esrEl1Entry, hdefined]
  rfl

/-- An exception raised by the instruction and taken to EL3 writes ESR_EL3, with the syndrome in the low half, and no other syndrome
register. -/
theorem raiseHere_el3 {r : ExceptionRecord} (s : State) (h : r.target = .el3) (hdefined : r.unpredictableAsUndefined = false) :
    (raiseHere r s).esrEl1 = s.esrEl1 ∧ (raiseHere r s).esrEl2 = s.esrEl2 ∧
      loOf (raiseHere r s).esrEl3 = syndrome s.params (syndromeInputs s) r (Config.freeValue s.draws) := by
  obtain ⟨hesr1, hesr2, hesr3⟩ := enterException_el3 { s with preferredReturn := s.pc } h
  refine ⟨hesr1, hesr2, ?_⟩
  rw [raiseHere, hesr3, esrHigherEntry, loOf_append, hdefined]
  rfl

/-- An accessor that reaches nothing is UNDEFINED, whichever it is. -/
theorem exec_eq_undefinedAccess {i : Instr} {s : State} (h : reachOf i s = .undef) : exec i s = .next (undefinedAccess s) := by
  rw [exec_eq_outcomeOf, h, outcomeOf]

/-- Settles O20, by the level that takes the exception: the record has no data, so its syndrome is one value (R66). -/
theorem undefinedAccessorRaises : Obligations.UndefinedAccessorRaises := by
  intro i s hreach
  have hsyn : syndrome s.params (syndromeInputs s) (plainRecord .unknownReason s) (Config.freeValue s.draws) = 0x02000000 :=
    syndrome_unknownReason _ _ _ rfl
  refine ⟨undefinedAccess s, exec_eq_undefinedAccess hreach, raiseHere_entered s (syncTarget_ne_el0 s), fun htarget => ?_,
    fun htarget => ?_, fun htarget => ?_⟩
  · obtain ⟨hesr1, hesr2, hesr3⟩ := raiseHere_el1 (r := plainRecord .unknownReason s) s htarget rfl
    rw [hsyn] at hesr1
    exact ⟨hesr1, hesr2, hesr3⟩
  · obtain ⟨hesr1, hesr3, hesr2⟩ := raiseHere_el2 (r := plainRecord .unknownReason s) s htarget rfl
    exact ⟨hesr1, hesr2.trans hsyn, hesr3⟩
  · obtain ⟨hesr1, hesr2, hesr3⟩ := raiseHere_el3 (r := plainRecord .unknownReason s) s htarget rfl
    exact ⟨hesr1, hesr2, hesr3.trans hsyn⟩

end Sys2Proof.Machine
end

section
/-! CV, COND and TI: the condition of a trapped instruction in the five layouts that report it to EL1 (R64, R65, R69). -/

namespace Sys2Proof.Machine

open BitVec (extractLsb'_append_eq_of_le extractLsb'_append_eq_of_add_le)

/-! ### CV and COND by Execution state and instruction set -/

section
variable (p : Params) {r : ExceptionRecord} (d : BitVec 4)

theorem cvBit_aarch64 (h : r.fromState = .aarch64) : cvBit p r = 1 := by
  simp [cvBit, h]

theorem cvBit_a32 (h : r.iset = .a32) : cvBit p r = 1 := by
  simp [cvBit, h]

theorem cvBit_t32 (h : r.fromState = .aarch32) (ht : r.iset = .t32) : cvBit p r = BitVec.ofBool p.t32Cv := by
  simp [cvBit, h, ht]

theorem condField_aarch64 (h : r.fromState = .aarch64) : condField p r d = 0b1110 := by
  simp [condField, h]

/-- From A32 the condition is the instruction's, unless it has none or COND_PASS_AS_AL hides one known to pass. -/
theorem condField_a32 (h : r.fromState = .aarch32) (ha : r.iset = .a32) :
    condField p r d = if r.conditional = true ∧ ¬(r.knownPass = true ∧ p.condPassAsAl = true) then r.cond else 0b1110 := by
  cases hconditional : r.conditional
  · simp [condField, h, ha, hconditional]
  · by_cases hpass : r.knownPass = true ∧ p.condPassAsAl = true <;> simp [condField, h, ha, hconditional, hpass]

/-- From T32 with T32_CV the condition is the one that applied, unless COND_PASS_AS_AL hides one known to pass. -/
theorem condField_t32 (h : r.fromState = .aarch32) (ht : r.iset = .t32) (hcv : p.t32Cv = true) :
    condField p r d = if r.knownPass = true ∧ p.condPassAsAl = true then 0b1110 else r.cond := by
  simp [condField, h, ht, hcv]

end

/-! ### Their place in a layout -/

/-- The five layouts have CV in bit [24] and COND in bits [23:20] (R68, R71, R76, R79, R86). -/
theorem issOfRecord_cond {p : Params} {g : SyndromeInputs} {r : ExceptionRecord} (d : Word)
    (h : layoutOfRecord p g r ∈ [IssLayout.wfx, .mcr, .mcrr, .ldc, .fpAcc]) :
    issField (issOfRecord p g r d) 24 24 = cvBit p r ∧
      issField (issOfRecord p g r d) 23 20 = condField p r (drawn d 20 4) := by
  simp only [List.mem_cons, List.not_mem_nil, or_false] at h
  rcases h with hl | hl | hl | hl | hl <;> simp only [issOfRecord, hl]
  all_goals
    simp +decide only [issField, issWfx, issMcr, issMcrr, issLdc, issFpAcc, condBits, extractLsb'_append_eq_of_le,
      extractLsb'_append_eq_of_add_le]
    simp

/-- TI is bit [0] of the WFX layout (R69). -/
theorem issWfx_ti (p : Params) (r : ExceptionRecord) (d : Word) : issField (issWfx p r d) 0 0 = BitVec.ofBool r.isWfe := by
  simp +decide only [issField, issWfx, extractLsb'_append_eq_of_add_le]
  simp

/-- Settles O41, by Execution state and instruction set. -/
theorem conditionSubfields : Obligations.ConditionSubfields := by
  intro p g r d hlayout
  obtain ⟨hcv, hcond⟩ := issOfRecord_cond d hlayout
  rw [hcv, hcond]
  refine ⟨fun h => ⟨cvBit_aarch64 p h, condField_aarch64 p _ h⟩, fun h ha => ⟨cvBit_a32 p ha, condField_a32 p _ h ha⟩,
    fun h ht hoff => ?_, fun h ht hon => ⟨?_, condField_t32 p _ h ht hon⟩, fun hcls => ?_⟩
  · rw [cvBit_t32 p h ht, hoff]
    rfl
  · rw [cvBit_t32 p h ht, hon]
    rfl
  · have hiss : issOfRecord p g r d = issWfx p r d := by simp [issOfRecord, layoutOfRecord, hcls]
    rw [hiss, issWfx_ti]

end Sys2Proof.Machine
end

section
/-! Classes whose syndrome is an EC, the instruction's length and one number: SVC, BRK, BKPT and Branch Target (R91, R104, R158, R190 to
R193, R211, R212, R215). -/

namespace Sys2Proof.Machine

/-! ### A number in the low bits of an ISS -/

/-- Zero above a number leaves the number as it is in any wider word. -/
theorem setWidth_zero_append {m k n : ℕ} (v : BitVec n) : ((0 : BitVec k) ++ v).setWidth m = v.setWidth m := by
  apply BitVec.eq_of_toNat_eq
  simp

/-- The ISS fills the low bits of a syndrome, which EC and IL leave zero (R61). -/
theorem fields_eq_or (ec : BitVec 6) (il : BitVec 1) (iss : BitVec 25) :
    ec ++ il ++ iss = (ec ++ il ++ (0 : BitVec 25)) ||| iss.setWidth 32 := by
  have hiss : iss.setWidth 32 = (0 : BitVec 7) ++ iss := by
    simpa using (setWidth_zero_append (m := 32) (k := 7) iss).symm
  have hor : (ec ++ il ++ (0 : BitVec 25)) ||| ((0 : BitVec 7) ++ iss) = (ec ++ il ||| 0) ++ (0 ||| iss) := BitVec.or_append
  rw [hiss, hor]
  simp

section
variable {p : Params} {g : SyndromeInputs} {r : ExceptionRecord} {d : Word} {ec : BitVec 6} {n : ℕ} {v : BitVec n}

/-- Where the EC neither forces IL nor is a Data Abort's, IL is the instruction's length (R215, last line). -/
theorem ilOfRecord_of_free (hec : ecOfRecord p g r = some ec) (hfree : ec ∉ ilForced ∧ ec ≠ 0x24 ∧ ec ≠ 0x25) :
    ilOfRecord p g r d = lengthBit r := by
  obtain ⟨hforced, h24, h25⟩ := hfree
  simp only [ilOfRecord, hec, if_neg hforced, if_neg (not_or.mpr ⟨h24, h25⟩)]

/-- Under such an EC, a number alone in the ISS is a number alone in the syndrome's low bits. -/
theorem syndrome_of_number (hec : ecOfRecord p g r = some ec) (hfree : ec ∉ ilForced ∧ ec ≠ 0x24 ∧ ec ≠ 0x25)
    (hiss : (issOfRecord p g r d).setWidth 32 = v.setWidth 32) :
    syndrome p g r d = (ec ++ lengthBit r ++ (0 : BitVec 25)) ||| v.setWidth 32 := by
  rw [syndrome, hec, ilOfRecord_of_free hec hfree, Option.getD_some, fields_eq_or, hiss]

end

/-! ### The instruction set and the length of a record the model takes -/

/-- Only T32 has 16-bit instructions (R60). -/
theorem lengthBit_of_not_t32 {p : Params} {r : ExceptionRecord} (hp : recordProblem p r = none) (hreads : readsInstruction p r = true)
    (hiset : r.iset ≠ .t32) : lengthBit r = 1 := by
  obtain ⟨-, -, -, hstate, -⟩ := recordProblem_none hp
  simp_all [execStateOk, lengthBit]

/-- A class that comes from AArch64 state only has an instruction of A64, of 32 bits (section 2 of 60_exceptions.md). -/
theorem a64_of_aarch64Class {p : Params} {r : ExceptionRecord} (hp : recordProblem p r = none) (hclass : aarch64Class r.cls = true) :
    r.iset = .a64 ∧ lengthBit r = 1 := by
  have hreads : readsInstruction p r = true := by
    cases hcls : r.cls <;> simp_all [aarch64Class, readsInstruction]
  have hiset : r.iset = .a64 := by
    obtain ⟨-, -, -, hstate, -⟩ := recordProblem_none hp
    simp_all [execStateOk]
  exact ⟨hiset, lengthBit_of_not_t32 hp hreads (by simp [hiset])⟩

/-- EC and IL, with IL spelt out by the instruction's length. -/
theorem append_lengthBit (ec : BitVec 6) (r : ExceptionRecord) :
    ec ++ lengthBit r ++ (0 : BitVec 25) =
      if r.instrLen = .bits16 then ec ++ (0 : BitVec 1) ++ (0 : BitVec 25) else ec ++ (1 : BitVec 1) ++ (0 : BitVec 25) := by
  cases hlen : r.instrLen <;> simp [lengthBit, hlen]

/-! ### SVC, BRK, BKPT and Branch Target -/

section
variable (p : Params) (g : SyndromeInputs) {r : ExceptionRecord} (d : Word)

/-- The number of an SVC of either EC is imm16 of its layout (R90, R192, R193). -/
theorem syndrome_svc {ec : BitVec 6} (hcls : r.cls = .svcA32 ∧ ec = 0x11 ∨ r.cls = .svcA64 ∧ ec = 0x15) :
    syndrome p g r d = (ec ++ lengthBit r ++ (0 : BitVec 25)) ||| (svcImm16 r (drawn d 0 16)).setWidth 32 := by
  have hiss : issOfRecord p g r d = issSvc r d := by
    rcases hcls with ⟨hcls, -⟩ | ⟨hcls, -⟩ <;> simp [issOfRecord, layoutOfRecord, hcls]
  refine syndrome_of_number ?_ ?_ (hiss ▸ setWidth_zero_append _)
  · rcases hcls with ⟨hcls, rfl⟩ | ⟨hcls, rfl⟩ <;> simp [ecOfRecord, hcls]
  · rcases hcls with ⟨-, rfl⟩ | ⟨-, rfl⟩ <;> decide

/-- The number of a BKPT or BRK is the comment (R157, R211, R212). -/
theorem syndrome_brk {ec : BitVec 6} (hcls : r.cls = .bkptA32 ∧ ec = 0x38 ∨ r.cls = .brkA64 ∧ ec = 0x3C) :
    syndrome p g r d = (ec ++ lengthBit r ++ (0 : BitVec 25)) ||| (brkComment r).setWidth 32 := by
  have hiss : issOfRecord p g r d = issBrk r := by
    rcases hcls with ⟨hcls, -⟩ | ⟨hcls, -⟩ <;> simp [issOfRecord, layoutOfRecord, hcls]
  refine syndrome_of_number ?_ ?_ (hiss ▸ setWidth_zero_append _)
  · rcases hcls with ⟨hcls, rfl⟩ | ⟨hcls, rfl⟩ <;> simp [ecOfRecord, hcls]
  · rcases hcls with ⟨-, rfl⟩ | ⟨-, rfl⟩ <;> decide

/-- The number of a Branch Target exception is BTYPE (R103, R190). -/
theorem syndrome_branchTarget (hcls : r.cls = .branchTarget) :
    syndrome p g r d = ((0x0D : BitVec 6) ++ lengthBit r ++ (0 : BitVec 25)) ||| r.btype.setWidth 32 := by
  have hiss : issOfRecord p g r d = issBti r := by simp [issOfRecord, layoutOfRecord, hcls]
  exact syndrome_of_number (by simp [ecOfRecord, hcls]) (by decide) (hiss ▸ setWidth_zero_append _)

end

/-- Settles O36, class by class: A64 and A32 instructions are 32 bits long, a T32 BKPT is either. -/
theorem callAndBreakSyndromes : Obligations.CallAndBreakSyndromes := by
  intro p g r d hp
  refine ⟨fun hcls => ?_, fun hcls => ?_, fun hcls => ?_, fun hcls hiset => ?_, fun hcls hiset => ?_⟩
  · obtain ⟨hiset, hlen⟩ := a64_of_aarch64Class hp (by rw [hcls]; rfl)
    rw [syndrome_svc p g d (.inr ⟨hcls, rfl⟩), hlen, svcImm16, if_pos hiset]
    rfl
  · obtain ⟨hiset, hlen⟩ := a64_of_aarch64Class hp (by rw [hcls]; rfl)
    rw [syndrome_brk p g d (.inr ⟨hcls, rfl⟩), hlen, brkComment, if_neg (by simp [hiset])]
    rfl
  · obtain ⟨-, hlen⟩ := a64_of_aarch64Class hp (by rw [hcls]; rfl)
    rw [syndrome_branchTarget p g d hcls, hlen]
    rfl
  · have hlen := lengthBit_of_not_t32 hp (by rw [readsInstruction, hcls]) (by simp [hiset])
    rw [syndrome_brk p g d (.inl ⟨hcls, rfl⟩), hlen, brkComment, if_neg (by simp [hiset])]
    rfl
  · rw [syndrome_brk p g d (.inl ⟨hcls, rfl⟩), append_lengthBit, brkComment, if_pos hiset,
      BitVec.setWidth_setWidth (by decide)]
    rfl

/-- Bits [31:16] of a word with a 16-bit number put in below them. -/
theorem or_setWidth_ushiftRight (c : BitVec 32) (v : BitVec 16) : (c ||| v.setWidth 32) >>> 16 = c >>> 16 := by
  have hv : v.setWidth 32 >>> 16 = 0 := by
    apply BitVec.eq_of_toNat_eq
    have hlt := v.isLt
    simp [Nat.shiftRight_eq_div_pow]
    omega
  rw [BitVec.ushiftRight_or_distrib, hv]
  simp

/-- Settles O37: whatever imm16 is, it leaves bits [31:16]; without a condition it is the instruction's immediate. -/
theorem aarch32SvcSyndromes : Obligations.AArch32SvcSyndromes := by
  intro p g r d hp hcls
  have hsyn := syndrome_svc p g d (.inl ⟨hcls, rfl⟩)
  refine ⟨?_, fun hiset huncond => ?_, fun hiset huncond => ?_⟩
  · rw [hsyn, or_setWidth_ushiftRight, append_lengthBit]
    split <;> rfl
  · have hlen := lengthBit_of_not_t32 hp (by rw [readsInstruction, hcls]) (by simp [hiset])
    have himm : svcImm16 r (drawn d 0 16) = r.imm24.extractLsb' 0 16 := by simp [svcImm16, hiset, huncond]
    rw [hsyn, hlen, himm]
    rfl
  · have himm : svcImm16 r (drawn d 0 16) = r.imm8.setWidth 16 := by simp [svcImm16, hiset, huncond]
    rw [hsyn, append_lengthBit, himm, BitVec.setWidth_setWidth (by decide)]
    rfl

end Sys2Proof.Machine
end

section
/-! A trapped accessor (R97, R164, R176): the SYS syndrome as a number, and the table of R164. -/

namespace Sys2Proof.Machine

/-- The number of a SYS ISS, subfield by subfield (R97). -/
theorem toNat_issSys (r : ExceptionRecord) (d : Word) :
    (issSys r d).toNat = r.op0.toNat * 2 ^ 20 + r.op2.toNat * 2 ^ 17 + r.op1.toNat * 2 ^ 14 + r.crn.toNat * 2 ^ 10 +
      (regField r r.rt (drawn d 5 5)).toNat * 2 ^ 5 + r.crm.toNat * 2 + r.isRead.toNat := by
  simp only [issSys, toNat_append_eq_add, BitVec.toNat_ofBool, BitVec.ofNat_eq_ofNat, BitVec.toNat_ofNat]
  omega

/-- A trap of an accessor reports the value that R164 prints for it with t = 0, and t in the place of Rt: both sides are compared as
numbers. -/
theorem syndrome_trapRecord (p : Params) (g : SyndromeInputs) (i : Instr) (s : State) (d : Word) :
    syndrome p g (trapRecord i.name i.isRead i.rt s) d = trapSyndromeBase i + i.rt.setWidth 32 * 32 := by
  have hec : ecOfRecord p g (trapRecord i.name i.isRead i.rt s) = some 0x18 := rfl
  have hil : ilOfRecord p g (trapRecord i.name i.isRead i.rt s) d = 1 := ilOfRecord_of_free hec (by decide)
  have hiss : issOfRecord p g (trapRecord i.name i.isRead i.rt s) d = issSys (trapRecord i.name i.isRead i.rt s) d := rfl
  apply BitVec.eq_of_toNat_eq
  rw [syndrome, hec, hil, hiss, Option.getD_some, toNat_fields, toNat_issSys]
  have hrt := i.rt.isLt
  cases i <;>
    simp [trapRecord, regField, trapSyndromeBase, Instr.name, Instr.isRead, Instr.rt, EsrName.op1, tupleOp0, tupleOp2,
      tupleCrn, tupleCrm] at hrt ⊢ <;>
    omega

theorem exec_eq_systemAccessTrap {i : Instr} {s : State} (h : reachOf i s = .trap) :
    exec i s = .next (systemAccessTrap i.name i.isRead i.rt s) := by
  rw [exec_eq_outcomeOf, h, outcomeOf]

/-- Settles O19: the trap is an exception raised here to EL2, with the record of the instruction itself. -/
theorem trappedAccessorReportsItself : Obligations.TrappedAccessorReportsItself := by
  intro i s hreach
  obtain ⟨hesr1, hesr3, hsyn⟩ := raiseHere_el2 (r := trapRecord i.name i.isRead i.rt s) s rfl rfl
  exact ⟨_, exec_eq_systemAccessTrap hreach, raiseHere_entered s (by simp [trapRecord]), hesr1, hesr3,
    hsyn.trans (syndrome_trapRecord ..)⟩

end Sys2Proof.Machine
end

section
/-! Instruction and Data Aborts: the fault status codes that are not reserved (R111, R128), and the subfields of the two layouts (R106 to
R110, R114 to R129). -/

namespace Sys2Proof.Machine

open BitVec (extractLsb'_append_eq_of_le extractLsb'_append_eq_of_add_le)

/-! ### Reserved fault status codes (R111, R128) -/

/-- The codes of an Instruction Abort that the features leave defined: 20 always, those of parity and ECC errors without the RAS
Extension, and that of an unsupported hardware update with ARMv8.1-TTHM (R111). -/
def IfscDefined (p : Params) (c : BitVec 6) : Prop :=
  c ∈ [(0x00 : BitVec 6), 0x01, 0x02, 0x03, 0x04, 0x05, 0x06, 0x07, 0x09, 0x0A, 0x0B, 0x0D, 0x0E, 0x0F, 0x10, 0x14, 0x15, 0x16,
      0x17, 0x30] ∨
    (p.haveRas = false ∧ c ∈ [(0x18 : BitVec 6), 0x1C, 0x1D, 0x1E, 0x1F]) ∨ (p.haveTthm = true ∧ c = 0x31)

/-- A meaning is given by a row of the table whose kind of fault the features define. -/
theorem row_of_lookupFault {p : Params} {table : List (BitVec 6 × FaultKind)} {c : BitVec 6} {k : FaultKind}
    (h : lookupFault p table c = some k) : (c, k) ∈ table ∧ faultKindDefined p k = true := by
  unfold lookupFault at h
  split at h
  · next j hrow =>
    obtain ⟨hdefined, hjk⟩ := Option.ite_none_right_eq_some.mp h
    obtain ⟨above, below, htable, -⟩ := List.lookup_eq_some_iff.mp hrow
    cases hjk
    exact ⟨by simp [htable], hdefined⟩
  · cases h

/-- Each row of the IFSC table whose kind the features define has one of the listed codes. -/
theorem ifscDefined_of_row {p : Params} : ∀ row ∈ ifscTable, faultKindDefined p row.2 = true → IfscDefined p row.1 := by
  simp [ifscTable, faultKindDefined, IfscDefined]

/-- Each row of the DFSC table beyond the IFSC table has one of four codes, or is a Domain fault (R128). -/
theorem dfscExtra_row : ∀ row ∈ dfscExtra,
    row.1 ∈ [(0x11 : BitVec 6), 0x21, 0x34, 0x35] ∨ row.2 = .sectionDomain ∨ row.2 = .pageDomain := by
  decide

theorem ifscDefined_of_ifscKind {p : Params} {c : BitVec 6} (h : (ifscKind p c).isSome = true) : IfscDefined p c := by
  obtain ⟨k, hk⟩ := Option.isSome_iff_exists.mp h
  obtain ⟨hrow, hdefined⟩ := row_of_lookupFault hk
  exact ifscDefined_of_row _ hrow hdefined

/-- A code that hardware can report has a meaning other than a Domain fault (R128). -/
theorem exists_dfscKind_of_reportable {p : Params} {c : BitVec 6} (h : dfscReportable p c = true) :
    ∃ k, dfscKind p c = some k ∧ k ≠ .sectionDomain ∧ k ≠ .pageDomain := by
  unfold dfscReportable at h
  split at h
  · cases h
  · cases h
  · cases h
  · next k hsection hpage hk => exact ⟨k, hk, hsection, hpage⟩

theorem ifscDefined_or_of_dfscReportable {p : Params} {c : BitVec 6} (h : dfscReportable p c = true) :
    IfscDefined p c ∨ c ∈ [(0x11 : BitVec 6), 0x21, 0x34, 0x35] := by
  obtain ⟨k, hk, hsection, hpage⟩ := exists_dfscKind_of_reportable h
  obtain ⟨hrow, hdefined⟩ := row_of_lookupFault hk
  rcases List.mem_append.mp hrow with hifsc | hextra
  · exact .inl (ifscDefined_of_row _ hifsc hdefined)
  · rcases dfscExtra_row _ hextra with hcode | hdomain | hdomain
    · exact .inr hcode
    · exact absurd hdomain hsection
    · exact absurd hdomain hpage

/-- A step that is given a record with a problem refuses it (V4). -/
theorem step_refuses_record {s : State} {r : ExceptionRecord} {rest : List Input} (hin : s.inputs = .exception r :: rest)
    (hp : recordProblem s.params r ≠ none) : ∃ q, step s = .refused (.badRecord q) := by
  have hstep : step s = takeException r { s with inputs := rest } := by simp [step, hin, applyEvent]
  rw [hstep]
  rcases takeException_cases r { s with inputs := rest } with ⟨hnone, -, -⟩ | ⟨-, hrefused⟩
  · exact absurd hnone hp
  · exact hrefused

/-- Settles O29: a record the model takes has a code with a meaning, and every such code is listed. -/
theorem reservedFaultStatusIsRefused : Obligations.ReservedFaultStatusIsRefused := by
  intro s r rest hin halways hras htthm hcls
  refine step_refuses_record hin fun hp => ?_
  obtain ⟨-, -, -, -, -, -, -, hstatus, -⟩ := recordProblem_none hp
  have hreserved : ¬IfscDefined s.params r.fsc := by
    rintro (hlisted | ⟨hnoRas, hparity⟩ | ⟨hwithTthm, hupdate⟩)
    · exact halways hlisted
    · exact hras.elim (by simp [hnoRas]) (absurd hparity)
    · exact htthm.elim (by simp [hwithTthm]) (absurd hupdate)
  rcases hcls with hcls | ⟨hcls, hextra⟩ <;> simp only [faultStatusOk, hcls] at hstatus
  · exact hreserved (ifscDefined_of_ifscKind hstatus)
  · exact (ifscDefined_or_of_dfscReportable hstatus).elim hreserved hextra

/-! ### EC and IL of an abort taken to EL1 (R180, R215) -/

/-- IL is 1 at EL1 where the EC forces it, and for every Data Abort (R215). -/
theorem ilOfRecord_eq_one_at_el1 {p : Params} {g : SyndromeInputs} {r : ExceptionRecord} {ec : BitVec 6} (d : Word)
    (htarget : r.target = .el1) (hec : ecOfRecord p g r = some ec) (h : ec ∈ ilForced ∨ ec = 0x24 ∨ ec = 0x25) :
    ilOfRecord p g r d = 1 := by
  refine (BitVec.eq_zero_or_eq_one _).resolve_left fun hzero => ?_
  obtain ⟨-, hforced, h24, h25⟩ := ilOfRecord_eq_zero_at_el1 htarget hec hzero
  exact h.elim hforced (not_or.mpr ⟨h24, h25⟩)

theorem lowerOrSame_at_el1 {r : ExceptionRecord} (htarget : r.target = .el1) (lower same : BitVec 6) :
    lowerOrSame r lower same = if r.fromEl = .el1 then same else lower := by
  rw [lowerOrSame, htarget]

/-! ### The subfields both abort layouts have (R107 to R110, R122 to R126) -/

theorem setField_eq (p : Params) (r : ExceptionRecord) :
    setField p r = if p.haveRas = true ∧ r.fsc = 0b010000 then r.set else 0 := by
  change setField p r = if p.haveRas = true ∧ r.fsc = fscSyncExternal then r.set else 0
  simp only [setField, Bool.and_eq_true, decide_eq_true_eq]

theorem fnvBit_eq (r : ExceptionRecord) : fnvBit r = if r.fsc = 0b010000 then BitVec.ofBool r.farNotValid else 0 := by
  change fnvBit r = if r.fsc = fscSyncExternal then BitVec.ofBool r.farNotValid else 0
  by_cases h : r.fsc = fscSyncExternal <;> simp [fnvBit, h]

theorem abortEaBit_eq (r : ExceptionRecord) (ea : BitVec 1) :
    abortEaBit r ea =
      if r.fsc ∈ [(0x10 : BitVec 6), 0x14, 0x15, 0x16, 0x17, 0x18, 0x1C, 0x1D, 0x1E, 0x1F] then ea else 0 := by
  simp only [abortEaBit, isExternalCode, decide_eq_true_eq]

theorem s1ptwBit_eq (r : ExceptionRecord) : s1ptwBit r = if r.stage2 = true then BitVec.ofBool r.s1ptw else 0 := by
  cases hstage2 : r.stage2 <;> simp [s1ptwBit, hstage2]

/-! ### The Instruction Abort layout (R106 to R111) -/

theorem issIabt_fields (p : Params) (r : ExceptionRecord) (ea : BitVec 1) :
    issField (issIabt p r ea) 24 13 = 0 ∧ issField (issIabt p r ea) 12 11 = setField p r ∧
      issField (issIabt p r ea) 10 10 = fnvBit r ∧ issField (issIabt p r ea) 9 9 = abortEaBit r ea ∧
      issField (issIabt p r ea) 8 8 = 0 ∧ issField (issIabt p r ea) 7 7 = s1ptwBit r ∧ issField (issIabt p r ea) 6 6 = 0 ∧
      issField (issIabt p r ea) 5 0 = r.fsc := by
  simp +decide only [issField, issIabt, extractLsb'_append_eq_of_le, extractLsb'_append_eq_of_add_le]
  simp

/-- Settles O39, subfield by subfield. -/
theorem instructionAbortFields : Obligations.InstructionAbortFields := by
  intro p g r d htarget hcls
  have hec : ecOfRecord p g r = some (lowerOrSame r 0x20 0x21) := by simp only [ecOfRecord, hcls]
  have hil : ilOfRecord p g r d = 1 :=
    ilOfRecord_eq_one_at_el1 d htarget hec (.inl (lowerOrSame_of_both (P := (· ∈ ilForced)) r (by decide) (by decide)))
  have hiss : issOfRecord p g r d = issIabt p r (Config.eaClass r) := by simp only [issOfRecord, layoutOfRecord, hcls]
  obtain ⟨high, set, fnv, ea, bit8, s1ptw, bit6, ifsc⟩ := issIabt_fields p r (Config.eaClass r)
  rw [hiss]
  exact ⟨hil, hec.trans (congrArg some (lowerOrSame_at_el1 htarget _ _)), high, bit8, bit6, ifsc, set.trans (setField_eq p r),
    fnv.trans (fnvBit_eq r), s1ptw, ea.trans (abortEaBit_eq r _)⟩

/-! ### The Data Abort layout taken to EL1 (R114 to R129) -/

/-- The part of the layout below VNCR, whatever the target. -/
theorem issDabt_fields (p : Params) (g : SyndromeInputs) (r : ExceptionRecord) (ea : BitVec 1) (d : Word) :
    issField (issDabt p g r ea d) 12 11 = setField p r ∧ issField (issDabt p g r ea d) 10 10 = fnvBit r ∧
      issField (issDabt p g r ea d) 9 9 = abortEaBit r ea ∧ issField (issDabt p g r ea d) 8 8 = BitVec.ofBool r.isCmOrAt ∧
      issField (issDabt p g r ea d) 7 7 = s1ptwBit r ∧ issField (issDabt p g r ea d) 6 6 = dabtWnr p r (drawn d 6 1) ∧
      issField (issDabt p g r ea d) 5 0 = r.fsc := by
  simp +decide only [issField, issDabt, extractLsb'_append_eq_of_le, extractLsb'_append_eq_of_add_le]
  simp

/-- ISV, the fields it makes RES0 and VNCR are zero at EL1 (R115 to R121, R129). -/
theorem issDabt_high_at_el1 (p : Params) (g : SyndromeInputs) {r : ExceptionRecord} (ea : BitVec 1) (d : Word)
    (htarget : r.target = .el1) : issField (issDabt p g r ea d) 24 13 = 0 := by
  have hisv : dabtIsv p g r = .is false := dabtIsv_of_target_ne_el2 (by simp [htarget])
  have hvncr : vncrBit p r = 0 := by simp [vncrBit, htarget]
  simp +decide only [issField, issDabt, hisv, hvncr, isvBit, transferField, extractLsb'_append_eq_of_le]

/-- WnR where R127 does not leave it UNKNOWN. -/
theorem dabtWnr_of_known (p : Params) {r : ExceptionRecord} (d : BitVec 1) (hexclusive : r.fsc ≠ 0b110101) (hupdate : r.fsc ≠ 0b110001)
    (hatomic : r.isAtomic = false ∨ r.fsc ∉ [(0x10 : BitVec 6), 0x14, 0x15, 0x16, 0x17, 0x18, 0x1C, 0x1D, 0x1E, 0x1F]) :
    dabtWnr p r d =
      if r.isCmOrAt = true then 1
      else if r.isAtomic = true then
        if (r.stage2 = true ∧ r.s1ptw = true ∧ p.atomicS1ptwWnr0 = true) ∨ r.readWouldFault = true then 0 else 1
      else if r.isWrite = true then 1 else 0 := by
  have hknown : ¬(isExternalCode r.fsc && r.isAtomic) = true := by
    rcases hatomic with h | h
    · simp [h]
    · simp only [isExternalCode, decide_eq_false h, Bool.false_and, Bool.false_eq_true, not_false_eq_true]
  rw [dabtWnr, if_neg (not_or.mpr ⟨hexclusive, hupdate⟩), if_neg hknown]
  have hrelaxed : (if r.stage2 && r.s1ptw && p.atomicS1ptwWnr0 then 0 else BitVec.ofBool (!r.readWouldFault)) =
      if (r.stage2 = true ∧ r.s1ptw = true ∧ p.atomicS1ptwWnr0 = true) ∨ r.readWouldFault = true then 0 else (1 : BitVec 1) := by
    cases r.readWouldFault <;> simp [and_assoc]
  have hwrite : BitVec.ofBool r.isWrite = if r.isWrite = true then 1 else 0 := by cases r.isWrite <;> rfl
  rw [hrelaxed, hwrite]

/-- Settles O38, subfield by subfield. -/
theorem dataAbortAtEl1 : Obligations.DataAbortAtEl1 := by
  intro p g r d htarget hcls
  have hec : ecOfRecord p g r = some (lowerOrSame r 0x24 0x25) := by simp only [ecOfRecord, hcls]
  have hil : ilOfRecord p g r d = 1 :=
    ilOfRecord_eq_one_at_el1 d htarget hec (.inr (lowerOrSame_of_both (P := fun ec => ec = 0x24 ∨ ec = 0x25) r (.inl rfl) (.inr rfl)))
  have hiss : issOfRecord p g r d = issDabt p g r (Config.eaClass r) d := by simp only [issOfRecord, layoutOfRecord, hcls]
  obtain ⟨set, fnv, ea, cm, s1ptw, wnr, dfsc⟩ := issDabt_fields p g r (Config.eaClass r) d
  rw [hiss]
  exact ⟨hil, issDabt_high_at_el1 p g _ d htarget, hec.trans (congrArg some (lowerOrSame_at_el1 htarget _ _)),
    set.trans (setField_eq p r), fnv.trans (fnvBit_eq r), ea.trans (abortEaBit_eq r _), cm, s1ptw.trans (s1ptwBit_eq r), dfsc,
    fun hexclusive hupdate hatomic => wnr.trans (dabtWnr_of_known p _ hexclusive hupdate hatomic)⟩

end Sys2Proof.Machine
end

section
/-! SError interrupts and trapped floating-point exceptions: each subfield of the two layouts in its place (R132 to R135, R138 to R143). -/

namespace Sys2Proof.Machine

open BitVec (extractLsb'_append_eq_of_le extractLsb'_append_eq_of_add_le)

/-! ### The SError layout (R138 to R143) -/

/-- Where the EC forces IL, IL is 1 whatever the target (R215, first list). -/
theorem ilOfRecord_of_forced {p : Params} {g : SyndromeInputs} {r : ExceptionRecord} {ec : BitVec 6} (d : Word)
    (hec : ecOfRecord p g r = some ec) (hforced : ec ∈ ilForced) : ilOfRecord p g r d = 1 := by
  simp only [ilOfRecord, hec, if_pos hforced]

/-- A bit that is reported only where a condition holds. -/
theorem ofBool_and_eq_ite (b c : Bool) : BitVec.ofBool (b && c) = if b = true then BitVec.ofBool c else 0 := by
  cases b <;> rfl

section
variable {p : Params} {r : ExceptionRecord} (ids : BitVec 24) (ea : BitVec 1)

/-- An IMPLEMENTATION DEFINED syndrome is IDS 1 above IDS_SYNDROME (R139). -/
theorem issSerr_impdef (himpdef : r.serrImpdef = true) : issSerr p r ids ea = (1 : BitVec 1) ++ ids := by
  rw [issSerr, if_pos himpdef]

/-- Without the RAS Extension an architected SError syndrome is zero (R139). -/
theorem issSerr_of_not_haveRas (harch : r.serrImpdef = false) (hras : p.haveRas = false) : issSerr p r ids ea = 0 := by
  simp only [issSerr, harch, hras, Bool.false_eq_true, Bool.not_false, if_false, if_true]

/-- With the RAS Extension IESB, AET and EA are reported only beside the DFSC of an asynchronous SError (R140 to R143). -/
theorem issSerr_fields (harch : r.serrImpdef = false) (hras : p.haveRas = true) :
    issField (issSerr p r ids ea) 24 14 = 0 ∧
      issField (issSerr p r ids ea) 13 13 =
        (if p.haveIesb = true ∧ r.serrDfsc = serrAsync then BitVec.ofBool r.iesb else 0) ∧
      issField (issSerr p r ids ea) 12 10 = (if r.serrDfsc = serrAsync then r.aet else 0) ∧
      issField (issSerr p r ids ea) 9 9 = (if r.serrDfsc = serrAsync ∧ r.isExternal = true then ea else 0) ∧
      issField (issSerr p r ids ea) 8 6 = 0 ∧ issField (issSerr p r ids ea) 5 0 = r.serrDfsc := by
  simp +decide only [issField, issSerr, harch, hras, if_false, ofBool_and_eq_ite, extractLsb'_append_eq_of_le,
    extractLsb'_append_eq_of_add_le]
  simp

end

/-- Settles O42, by who defines the syndrome and by the RAS Extension. -/
theorem sErrorFields : Obligations.SErrorFields := by
  intro p g r d hcls
  have hec : ecOfRecord p g r = some 0b101111 := by simp only [ecOfRecord, hcls]
  have hiss : issOfRecord p g r d = issSerr p r (Config.idsSyndrome r) (Config.eaClass r) := by
    simp only [issOfRecord, layoutOfRecord, hcls]
  rw [hiss]
  refine ⟨hec, ilOfRecord_of_forced d hec (by decide), fun himpdef => ?_, issSerr_of_not_haveRas _ _, fun harch hras => ?_⟩
  · rw [issSerr_impdef _ _ himpdef]
    exact ⟨BitVec.extractLsb'_append_eq_left, BitVec.extractLsb'_append_eq_right⟩
  · obtain ⟨high, iesb, aet, ea, low, dfsc⟩ := issSerr_fields (Config.idsSyndrome r) (Config.eaClass r) harch hras
    exact ⟨high, dfsc, low, ea, aet, iesb⟩

/-! ### The floating-point exception layout (R132 to R135) -/

/-- A part of a word is what stands above its lowest bit, and that bit. -/
theorem extractLsb'_succ {w : ℕ} (v : BitVec w) (start n : ℕ) :
    v.extractLsb' start (n + 1) = v.extractLsb' (start + 1) n ++ v.extractLsb' start 1 :=
  (BitVec.extractLsb'_append_extractLsb'_eq_extractLsb' rfl).symm

/-- The five low bits of an ISS, bit by bit. -/
theorem issField_low_bits (v : BitVec 25) :
    issField v 4 0 = issField v 4 4 ++ issField v 3 3 ++ issField v 2 2 ++ issField v 1 1 ++ issField v 0 0 := by
  change v.extractLsb' 0 5 = _
  rw [extractLsb'_succ v 0 4, extractLsb'_succ v 1 3, extractLsb'_succ v 2 2, extractLsb'_succ v 3 1]
  rfl

/-- The FPEXC layout, each of the six exceptions a bit of its own (R132 to R135). -/
theorem issFpExc_fields (p : Params) (r : ExceptionRecord) (d : Word) :
    issField (issFpExc p r d) 24 24 = 0 ∧ issField (issFpExc p r d) 23 23 = BitVec.ofBool (fpTfv p r) ∧
      issField (issFpExc p r d) 22 11 = 0 ∧ issField (issFpExc p r d) 10 8 = vecitr r (drawn d 8 3) ∧
      issField (issFpExc p r d) 7 7 = fpBit p r r.fpTrapped.inputDenormal (drawn d 7 1) ∧
      issField (issFpExc p r d) 6 5 = 0 ∧
      issField (issFpExc p r d) 4 0 =
        fpBit p r r.fpTrapped.inexact (drawn d 4 1) ++ fpBit p r r.fpTrapped.underflow (drawn d 3 1) ++
          fpBit p r r.fpTrapped.overflow (drawn d 2 1) ++ fpBit p r r.fpTrapped.divideByZero (drawn d 1 1) ++
          fpBit p r r.fpTrapped.invalidOperation (drawn d 0 1) := by
  rw [issField_low_bits]
  simp +decide only [issField, issFpExc, extractLsb'_append_eq_of_le, extractLsb'_append_eq_of_add_le]
  simp

/-- With TFV 1 a bit tells whether its exception occurred (R135). -/
theorem fpBit_of_tfv {p : Params} {r : ExceptionRecord} (h : fpTfv p r = true) (b : Bool) (d : BitVec 1) :
    fpBit p r b d = BitVec.ofBool b := by
  rw [fpBit, if_pos h]

/-- TFV is 0 only for a vector instruction where the implementation reports none of its exceptions (R133). -/
theorem fpTfv_eq_true {p : Params} {r : ExceptionRecord} : fpTfv p r = true ↔ ¬(r.isVector = true ∧ p.tfvZeroOnVector = true) := by
  rw [fpTfv, Bool.not_eq_true', ← Bool.not_eq_true, Bool.and_eq_true]

/-- Settles O43, by Execution state for VECITR and by TFV for the six bits. -/
theorem floatingPointFields : Obligations.FloatingPointFields := by
  intro p g r d hcls
  have hiss : issOfRecord p g r d = issFpExc p r d := by
    rcases hcls with hcls | hcls <;> simp only [issOfRecord, layoutOfRecord, hcls]
  obtain ⟨bit24, tfv, high, vec, inputDenormal, gap, low⟩ := issFpExc_fields p r d
  rw [hiss]
  refine ⟨tfv, bit24, high, gap, fun haarch32 => ?_, fun hvalid => ?_⟩
  · rw [vec, vecitr, if_pos haarch32]
  · have hbit : ∀ b d, fpBit p r b d = BitVec.ofBool b := fpBit_of_tfv (fpTfv_eq_true.mpr hvalid)
    simp only [hbit] at inputDenormal low
    exact ⟨inputDenormal, low⟩

end Sys2Proof.Machine
end

section
/-! The accessors where they reach register ESR_EL2 (R160, R161, R170, R171, R174, R175), the decision table outcome by outcome (R176),
and what an UNDEFINED accessor makes of the content of ESR_EL1 at EL0 (R163, R177). -/

namespace Sys2Proof.Machine

/-! ### Register ESR_EL2 -/

theorem exec_eq_readEsrEl2 {i : Instr} {s : State} (hr : i.isRead = true) (h : reachOf i s = .reg2) :
    exec i s = .next (readEsrEl2 i.rt s) := by
  simp [exec_eq_outcomeOf, h, outcomeOf, hr]

theorem exec_eq_writeEsrEl2 {i : Instr} {s : State} (hw : i.isRead = false) (h : reachOf i s = .reg2) :
    exec i s = .next (writeEsrEl2 i.rt s) := by
  simp [exec_eq_outcomeOf, h, outcomeOf, hw]

/-- A read of ESR_EL2 fills its register with all 64 bits (R161); number 31 discards them (R34). -/
theorem readX_readEsrEl2_same (rt : BitVec 5) (s : State) : readX (readEsrEl2 rt s) rt = if rt = 31 then 0 else s.esrEl2 := by
  rw [readEsrEl2, readX_completeRead_same]
  simp only [toNat_lt_31_iff, ne_eq, ite_not]

/-- What a read of register ESR_EL2 leaves: the memory, and all that a completed accessor keeps (R160). -/
theorem readEsrEl2_frame (rt : BitVec 5) (s : State) :
    SameMemory s (readEsrEl2 rt s) ∧ Completed s (readEsrEl2 rt s) := by
  simp [SameMemory, Completed, SameEnvironment]

/-- What a write of register ESR_EL2 leaves: the memory, and all that a completed accessor keeps (R160). -/
theorem writeEsrEl2_frame (rt : BitVec 5) (s : State) :
    SameMemory s (writeEsrEl2 rt s) ∧ Completed s (writeEsrEl2 rt s) := by
  simp [SameMemory, Completed, SameEnvironment]

/-- Settles O12: the accessor is the read of ESR_EL2, which fills one register. -/
theorem mrsReadsEsrEl2 : Obligations.MrsReadsEsrEl2 := by
  intro i s hread hreach
  exact ⟨readEsrEl2 i.rt s, exec_eq_readEsrEl2 hread hreach, readX_readEsrEl2_same i.rt s,
    fun r hr => readX_completeRead_other s i.rt r s.esrEl2 hr, readEsrEl2_esrEl1 i.rt s, readEsrEl2_esrEl2 i.rt s,
    readEsrEl2_frame i.rt s⟩

/-- Settles O13: the accessor is the write of ESR_EL2, which changes no general-purpose register. -/
theorem msrWritesEsrEl2 : Obligations.MsrWritesEsrEl2 := by
  intro i s hwrite hreach
  exact ⟨writeEsrEl2 i.rt s, exec_eq_writeEsrEl2 hwrite hreach, writeEsrEl2_esrEl2 i.rt s,
    fun r => readX_congr (writeEsrEl2_x i.rt s) r, writeEsrEl2_esrEl1 i.rt s, writeEsrEl2_frame i.rt s⟩

/-! ### The decision table (R176) -/

/-- Settles O59, by what the accessor reaches and its direction: one equation of `exec` per outcome of the table. -/
theorem accessorsFollowTheDecisionTable : Obligations.AccessorsFollowTheDecisionTable := by
  intro i s
  cases hreach : reachOf i s with
  | reg1 =>
    cases hread : i.isRead with
    | true => exact exec_eq_readEsrEl1 hread hreach
    | false => exact exec_eq_writeEsrEl1 hread hreach
  | reg2 =>
    cases hread : i.isRead with
    | true => exact exec_eq_readEsrEl2 hread hreach
    | false => exact exec_eq_writeEsrEl2 hread hreach
  | mem =>
    cases hread : i.isRead with
    | true => exact exec_eq_readNvMem hread hreach
    | false => exact exec_eq_writeNvMem hread hreach
  | trap => exact exec_eq_systemAccessTrap hreach
  | undef => exact exec_eq_undefinedAccess hreach

/-! ### ESR_EL1 and an exception raised at EL0 (R163, R177) -/

/-- An exception taken to EL1 overwrites ESR_EL1, so it leaves nothing of the content from before. -/
theorem raiseHere_forgets_esrEl1 {r : ExceptionRecord} (s : State) (c : EsrContent) (h : r.target = .el1) :
    raiseHere r { s with esrEl1 := c } = raiseHere r s := by
  simp only [raiseHere, enterException, recordSyndrome, h]
  rfl

/-- An exception taken elsewhere carries the content of ESR_EL1 along and makes nothing else depend on it. -/
theorem raiseHere_carries_esrEl1 {r : ExceptionRecord} (s : State) (c : EsrContent) (h : r.target ≠ .el1) :
    raiseHere r { s with esrEl1 := c } = { raiseHere r s with esrEl1 := c } := by
  cases htarget : r.target with
  | el1 => exact absurd htarget h
  | el0 | el2 | el3 =>
    simp only [raiseHere, enterException, recordSyndrome, htarget]
    rfl

/-- Two UNDEFINED accessors that differ in the content of ESR_EL1 alone end alike but for that content, and alike where EL1 takes the
exception (R163). -/
theorem undefinedAccess_esrEl1_insensitive (s : State) (c : EsrContent) :
    undefinedAccess { s with esrEl1 := c } =
        { undefinedAccess s with esrEl1 := (undefinedAccess { s with esrEl1 := c }).esrEl1 } ∧
      ((undefinedAccess s).pstateEl = .el1 → undefinedAccess { s with esrEl1 := c } = undefinedAccess s) := by
  have hforgets : syncTarget s = .el1 → undefinedAccess { s with esrEl1 := c } = undefinedAccess s :=
    raiseHere_forgets_esrEl1 (r := plainRecord .unknownReason s) s c
  refine ⟨?_, fun hel => hforgets ((raiseHere_pstateEl _ s).symm.trans hel)⟩
  by_cases htarget : syncTarget s = .el1
  · rw [hforgets htarget]
  · have hcarries : undefinedAccess { s with esrEl1 := c } = { undefinedAccess s with esrEl1 := c } :=
      raiseHere_carries_esrEl1 (r := plainRecord .unknownReason s) s c htarget
    rw [hcarries]

/-- Settles O21: at EL0 both runs are UNDEFINED accesses. -/
theorem el0LearnsNothingOfEsrEl1 : Obligations.El0LearnsNothingOfEsrEl1 := by
  intro i s c hel
  have hreach : reachOf i { s with esrEl1 := c } = .undef := reachOf_el0 i hel
  exact ⟨reachOf_el0 i hel, undefinedAccess s, undefinedAccess { s with esrEl1 := c },
    exec_eq_undefinedAccess (reachOf_el0 i hel), exec_eq_undefinedAccess hreach, undefinedAccess_esrEl1_insensitive s c⟩

end Sys2Proof.Machine
end

section
/-! Alignment faults, the Illegal Execution state and the debug exceptions: EC and IL are fixed by the class and the levels, and the ISS
is a constant or a debug status code with a few bits above it (R146 to R155, R191, R198, R201, R205 to R210). -/

namespace Sys2Proof.Machine

section
variable {p : Params} {g : SyndromeInputs} {r : ExceptionRecord} {ec lower same : BitVec 6} (d : Word)

/-! ### Under an EC that forces IL (R61, R215) -/

/-- A syndrome whose EC forces IL is the EC, a one and the ISS. -/
theorem syndrome_of_forced (hec : ecOfRecord p g r = some ec) (hforced : ec ∈ ilForced) :
    syndrome p g r d = ec ++ (1 : BitVec 1) ++ issOfRecord p g r d := by
  rw [syndrome, hec, ilOfRecord_of_forced d hec hforced, Option.getD_some]

/-- IL and the number of a syndrome taken to EL1 whose EC is one of a pair that forces IL. -/
theorem syndrome_of_pair (htarget : r.target = .el1) (hec : ecOfRecord p g r = some (lowerOrSame r lower same))
    (hlower : lower ∈ ilForced) (hsame : same ∈ ilForced) :
    ilOfRecord p g r d = 1 ∧ (syndrome p g r d).toNat =
      (if r.fromEl = .el1 then same.toNat else lower.toNat) * 2 ^ 26 + 2 ^ 25 + (issOfRecord p g r d).toNat := by
  have hforced : lowerOrSame r lower same ∈ ilForced := lowerOrSame_of_both (P := (· ∈ ilForced)) r hlower hsame
  refine ⟨ilOfRecord_of_forced d hec hforced, ?_⟩
  rw [syndrome_of_forced d hec hforced, toNat_fields, lowerOrSame_at_el1 htarget, apply_ite BitVec.toNat]
  rfl

/-! ### The ILL layout: Illegal Execution state, PC and SP alignment (R191, R198, R201) -/

/-- The three classes without ISS bits: EC and IL are the whole value. -/
theorem illSyndrome
    (hcls : r.cls = .illegalState ∧ ec = 0x0E ∨ r.cls = .pcAlignment ∧ ec = 0x22 ∨ r.cls = .spAlignment ∧ ec = 0x26) :
    layoutOfRecord p g r = .ill ∧ ilOfRecord p g r d = 1 ∧ syndrome p g r d = ec ++ (1 : BitVec 1) ++ (0 : BitVec 25) := by
  have hec : ecOfRecord p g r = some ec := by
    rcases hcls with ⟨hcls, rfl⟩ | ⟨hcls, rfl⟩ | ⟨hcls, rfl⟩ <;> simp only [ecOfRecord, hcls]
  have hforced : ec ∈ ilForced := by
    rcases hcls with ⟨-, rfl⟩ | ⟨-, rfl⟩ | ⟨-, rfl⟩ <;> decide
  have hlayout : layoutOfRecord p g r = .ill := by
    rcases hcls with ⟨hcls, -⟩ | ⟨hcls, -⟩ | ⟨hcls, -⟩ <;> simp only [layoutOfRecord, hcls]
  have hiss : issOfRecord p g r d = 0 := by rw [issOfRecord, hlayout, issIll]
  exact ⟨hlayout, ilOfRecord_of_forced d hec hforced, hiss ▸ syndrome_of_forced d hec hforced⟩

/-- A PC alignment fault reports one value, whatever level takes it (R198). -/
theorem syndrome_pcAlignment (hcls : r.cls = .pcAlignment) : syndrome p g r d = 0x8A000000 := by
  obtain ⟨-, -, hsyn⟩ := illSyndrome (p := p) (g := g) d (.inr (.inl ⟨hcls, rfl⟩))
  rw [hsyn]
  rfl

/-! ### The BKPT layout: Breakpoint and Vector Catch (R146, R205, R206) -/

/-- The EC of a Breakpoint or Vector Catch tells whether the levels differ; the ISS is the debug status code. -/
theorem bkptSyndrome (hcls : r.cls = .breakpoint ∨ r.cls = .vectorCatch) :
    layoutOfRecord p g r = .bkpt ∧ ilOfRecord p g r d = 1 ∧
      syndrome p g r d = lowerOrSame r 0x30 0x31 ++ (1 : BitVec 1) ++ issBkpt := by
  have hec : ecOfRecord p g r = some (lowerOrSame r 0x30 0x31) := by
    rcases hcls with hcls | hcls <;> simp only [ecOfRecord, hcls]
  have hforced : lowerOrSame r 0x30 0x31 ∈ ilForced := lowerOrSame_of_both (P := (· ∈ ilForced)) r (by decide) (by decide)
  have hlayout : layoutOfRecord p g r = .bkpt := by
    rcases hcls with hcls | hcls <;> simp only [layoutOfRecord, hcls]
  have hiss : issOfRecord p g r d = issBkpt := by rw [issOfRecord, hlayout]
  exact ⟨hlayout, ilOfRecord_of_forced d hec hforced, hiss ▸ syndrome_of_forced d hec hforced⟩

end

/-- Settles O33, class by class. -/
theorem constantSyndromes : Obligations.ConstantSyndromes := by
  intro p g r d htarget
  refine ⟨fun hcls => illSyndrome d (.inl ⟨hcls, rfl⟩), fun hcls => illSyndrome d (.inr (.inl ⟨hcls, rfl⟩)),
    fun hcls => illSyndrome d (.inr (.inr ⟨hcls, rfl⟩)), fun hcls hfrom => ?_, fun hcls hfrom => ?_⟩
  · obtain ⟨hlayout, hil, hsyn⟩ := bkptSyndrome (p := p) (g := g) d hcls
    rw [lowerOrSame_at_el1 htarget, if_neg (by simp [hfrom])] at hsyn
    exact ⟨hlayout, hil, hsyn⟩
  · obtain ⟨hlayout, hil, hsyn⟩ := bkptSyndrome (p := p) (g := g) d (.inl hcls)
    rw [lowerOrSame_at_el1 htarget, if_pos hfrom] at hsyn
    exact ⟨hlayout, hil, hsyn⟩

/-! ### Software Step (R148 to R150, R207, R208) -/

/-- A bit in its place: the weight of the place where the bit is set. -/
theorem toNat_ofBool_mul (b : Bool) (n : ℕ) : (BitVec.ofBool b).toNat * n = if b then n else 0 := by
  cases b <;> simp

/-- The number of an SSTEP ISS: ISV and EX above the debug status code. -/
theorem toNat_issSstep (r : ExceptionRecord) :
    (issSstep r).toNat =
      (if r.stepIsv then 2 ^ 24 else 0) + (if r.stepIsv && r.steppedLoadExclusive then 2 ^ 6 else 0) + 0x22 := by
  rw [← toNat_ofBool_mul, ← toNat_ofBool_mul]
  simp only [issSstep, toNat_append_eq_add, BitVec.ofNat_eq_ofNat, BitVec.toNat_ofNat, fscDebug]
  omega

/-- Settles O34: the EC is one of a pair that forces IL, and the ISS adds its two bits. -/
theorem softwareStepSyndromes : Obligations.SoftwareStepSyndromes := by
  intro p g r d htarget hcls
  have hec : ecOfRecord p g r = some (lowerOrSame r 0x32 0x33) := by simp only [ecOfRecord, hcls]
  have hlayout : layoutOfRecord p g r = .sstep := by simp only [layoutOfRecord, hcls]
  have hiss : issOfRecord p g r d = issSstep r := by rw [issOfRecord, hlayout]
  obtain ⟨hil, hnum⟩ := syndrome_of_pair d htarget hec (by decide) (by decide)
  refine ⟨hlayout, hil, ?_⟩
  rw [hnum, hiss, toNat_issSstep]
  by_cases hfrom : r.fromEl = .el1 <;> simp only [hfrom, if_true, if_false, BitVec.ofNat_eq_ofNat, BitVec.toNat_ofNat] <;> omega

/-! ### Watchpoint (R152 to R155, R209, R210) -/

/-- VNCR is 0 in ESR_EL1 (R121, R153). -/
theorem vncrBit_at_el1 (p : Params) {r : ExceptionRecord} (htarget : r.target = .el1) : vncrBit p r = 0 := by
  simp [vncrBit, htarget]

/-- WnR of a Watchpoint is set by cache maintenance and address translation, by an atomic access whose read would not fault, and by
another write (R155). -/
theorem ite_wptWnr (r : ExceptionRecord) (n : ℕ) :
    (if wptWnr r then n else 0) =
      if r.isCmOrAt then n else if r.isAtomic then (if r.readWouldFault then 0 else n) else if r.isWrite then n else 0 := by
  unfold wptWnr
  cases r.isCmOrAt with
  | true => rfl
  | false =>
    cases r.isAtomic with
    | true => cases r.readWouldFault <;> rfl
    | false => rfl

/-- The number of a WPT ISS taken to EL1: CM and WnR above the debug status code. -/
theorem toNat_issWpt_at_el1 (p : Params) {r : ExceptionRecord} (htarget : r.target = .el1) :
    (issWpt p r).toNat = (if r.isCmOrAt then 2 ^ 8 else 0) + (if wptWnr r then 2 ^ 6 else 0) + 0x22 := by
  rw [← toNat_ofBool_mul, ← toNat_ofBool_mul]
  simp only [issWpt, vncrBit_at_el1 p htarget, toNat_append_eq_add, BitVec.ofNat_eq_ofNat, BitVec.toNat_ofNat, fscDebug]
  omega

/-- Settles O35: the EC is one of a pair that forces IL, and the ISS adds CM and WnR. -/
theorem watchpointSyndromes : Obligations.WatchpointSyndromes := by
  intro p g r d htarget hcls
  have hec : ecOfRecord p g r = some (lowerOrSame r 0x34 0x35) := by simp only [ecOfRecord, hcls]
  have hlayout : layoutOfRecord p g r = .wpt := by simp only [layoutOfRecord, hcls]
  have hiss : issOfRecord p g r d = issWpt p r := by rw [issOfRecord, hlayout]
  obtain ⟨hil, hnum⟩ := syndrome_of_pair d htarget hec (by decide) (by decide)
  refine ⟨hlayout, hil, ?_⟩
  rw [hnum, hiss, toNat_issWpt_at_el1 p htarget, ite_wptWnr]
  by_cases hfrom : r.fromEl = .el1 <;> simp only [hfrom, if_true, if_false, BitVec.ofNat_eq_ofNat, BitVec.toNat_ofNat] <;> omega

end Sys2Proof.Machine
end

section
/-! What an exception entry leaves, by the level that takes it: a misaligned `pc`, a delivered record, an IRQ or FIQ (R179, R220, R231). -/

namespace Sys2Proof.Machine

/-! ### The low half of what an entry writes (R179) -/

section
variable {r : ExceptionRecord} (s : State)

theorem esrEl1Entry_of_defined (hdefined : r.unpredictableAsUndefined = false) :
    esrEl1Entry s r = (0 : BitVec 32) ++ syndrome s.params (syndromeInputs s) r (Config.freeValue s.draws) := by
  simp [esrEl1Entry, hdefined]

theorem loOf_esrHigherEntry (hdefined : r.unpredictableAsUndefined = false) :
    loOf (esrHigherEntry s r) = syndrome s.params (syndromeInputs s) r (Config.freeValue s.draws) := by
  simp [esrHigherEntry, hdefined]

end

/-! ### A misaligned `pc` (R198, R231) -/

theorem step_misaligned {s : State} {w : InstrWord} {rest : List Input} (hin : s.inputs = .execute w :: rest)
    (hpc : s.pc.toNat % 4 ≠ 0) : step s = .next (pcAlignmentFault { s with inputs := rest }) := by
  have halign : ¬pcAligned { s with inputs := rest } = true := mt (pcAligned_iff _).mp hpc
  simp [step, hin, runWord, halign]

/-- The syndrome that a PC alignment fault leaves in the register of the level that takes it, and in no other. -/
theorem pcAlignmentFault_syndromes (s : State) :
    (syncTarget s = .el1 → (pcAlignmentFault s).esrEl1 = .known 0x8A000000 ∧ (pcAlignmentFault s).esrEl2 = s.esrEl2 ∧
        (pcAlignmentFault s).esrEl3 = s.esrEl3) ∧
      (syncTarget s = .el2 → (pcAlignmentFault s).esrEl1 = s.esrEl1 ∧ loOf (pcAlignmentFault s).esrEl2 = 0x8A000000 ∧
        (pcAlignmentFault s).esrEl3 = s.esrEl3) ∧
      (syncTarget s = .el3 → (pcAlignmentFault s).esrEl1 = s.esrEl1 ∧ (pcAlignmentFault s).esrEl2 = s.esrEl2 ∧
        loOf (pcAlignmentFault s).esrEl3 = 0x8A000000) := by
  have hsyn : syndrome s.params (syndromeInputs s) (plainRecord .pcAlignment s) (Config.freeValue s.draws) = 0x8A000000 :=
    syndrome_pcAlignment _ rfl
  have hhigher : loOf (esrHigherEntry s (plainRecord .pcAlignment s)) = 0x8A000000 := (loOf_esrHigherEntry s rfl).trans hsyn
  refine ⟨fun htarget => ?_, fun htarget => ?_, fun htarget => ?_⟩
  · obtain ⟨hesr1, hesr2, hesr3⟩ := enterException_el1 (r := plainRecord .pcAlignment s) s htarget
    rw [esrEl1Entry_of_defined s rfl, hsyn] at hesr1
    exact ⟨hesr1, hesr2, hesr3⟩
  · obtain ⟨hesr1, hesr2, hesr3⟩ := enterException_el2 (r := plainRecord .pcAlignment s) s htarget
    exact ⟨hesr1, (congrArg loOf hesr2).trans hhigher, hesr3⟩
  · obtain ⟨hesr1, hesr2, hesr3⟩ := enterException_el3 (r := plainRecord .pcAlignment s) s htarget
    exact ⟨hesr1, hesr2, (congrArg loOf hesr3).trans hhigher⟩

/-- Settles O7: the word is consumed before it is decoded, and the fault is an entry to the synchronous target. -/
theorem misalignedPcFaultsFirst : Obligations.MisalignedPcFaultsFirst := by
  intro s w rest hin hpc
  exact ⟨_, step_misaligned hin hpc, enterException_entered { s with inputs := rest } (syncTarget_ne_el0 s),
    enterException_inputs _ _, pcAlignmentFault_syndromes { s with inputs := rest }⟩

/-! ### A record taken to EL2 or EL3 (R179) -/

/-- Settles O28: an entry writes the syndrome register of its target alone. -/
theorem exceptionToHigherLevelLeavesEsrEl1 : Obligations.ExceptionToHigherLevelLeavesEsrEl1 := by
  intro s r rest hin hp hf hne
  refine ⟨_, step_exception hin hp hf, enterException_esrEl1_of_ne _ hne, fun htarget => ?_, fun htarget => ?_,
    enterException_entered { s with inputs := rest } (target_ne_el0 hp), enterException_inputs _ _⟩
  · obtain ⟨-, -, hesr3⟩ := enterException_el2 { s with inputs := rest } htarget
    exact hesr3
  · obtain ⟨-, hesr2, -⟩ := enterException_el3 { s with inputs := rest } htarget
    exact hesr2

/-! ### IRQ and FIQ (R180, R220) -/

theorem targetOk_iff {p : Params} {r : ExceptionRecord} :
    targetOk p r = true ↔ r.target ≠ .el0 ∧ r.fromEl.rank ≤ r.target.rank ∧ (r.target = .el2 → p.haveEl2 = true) ∧
      (r.target = .el3 → p.haveEl3 = true) := by
  simp [targetOk, and_assoc, imp_iff_not_or]

theorem tgeAllows_iff {s : State} {fromEl target : ExceptionLevel} :
    tgeAllows s fromEl target = true ↔ ¬(fromEl = .el0 ∧ target = .el1 ∧ hcrTge s = true) := by
  simp [tgeAllows, imp_iff_not_or, or_assoc]

theorem takeInterrupt_of_allowed {s : State} {l : ExceptionLevel}
    (htarget : targetOk s.params { target := l, fromEl := s.pstateEl } = true) (htge : tgeAllows s s.pstateEl l = true) :
    takeInterrupt l s = .next (enterLevel l s) := by
  rw [takeInterrupt, htarget, htge]
  rfl

theorem step_interrupt {s : State} {l : ExceptionLevel} {rest : List Input} (hin : s.inputs = .interrupt l :: rest) :
    step s = takeInterrupt l { s with inputs := rest } := by
  simp [step, hin, applyEvent]

/-- The level and the frame that an entry without a syndrome leaves (R220, R223). -/
theorem enterLevel_entered (l : ExceptionLevel) (s : State) : EnteredByEvent l s (enterLevel l s) :=
  ⟨rfl, rfl, rfl, fun _ => rfl, fun _ => rfl, rfl, rfl⟩

/-- Settles O50: the level is one an interrupt can go to, and its entry is all that happens. -/
theorem interruptLeavesEsrEl1 : Obligations.InterruptLeavesEsrEl1 := by
  intro s l rest hin hel0 hrank hel2 hel3 htge
  have htaken : takeInterrupt l { s with inputs := rest } = .next (enterLevel l { s with inputs := rest }) :=
    takeInterrupt_of_allowed (targetOk_iff.mpr ⟨hel0, hrank, hel2, hel3⟩) (tgeAllows_iff.mpr htge)
  exact ⟨_, (step_interrupt hin).trans htaken, rfl, rfl, rfl, enterLevel_entered l { s with inputs := rest }⟩

end Sys2Proof.Machine
end

section
/-! The invariant of reserved EC values (R213): the syndrome of a record the model takes to EL1 has a defined EC. -/

namespace Sys2Proof.Machine

/-- Hardware reports a defined EC at EL1 (R213). -/
theorem ecDefined_syndrome_at_el1 {p : Params} (g : SyndromeInputs) {r : ExceptionRecord} (d : Word) (hp : recordProblem p r = none)
    (htarget : r.target = .el1) : ecDefined p ((syndrome p g r d).extractLsb' 26 6) = true := by
  obtain ⟨ec, hec⟩ := ecOfRecord_at_el1 g hp htarget
  obtain ⟨-, hdefined, -⟩ := ecSelectsTheLayout p g r ec hp hec
  rwa [syndrome_ec d hec]

/-- What an exception taken to EL1 writes has a defined EC, an UNPREDICTABLE instruction's included: its value is the syndrome of another
record the model takes to EL1 (R28, R213). -/
theorem ecDefined_esrEl1Entry (s : State) {r : ExceptionRecord} (hp : recordProblem s.params r = none) (htarget : r.target = .el1) :
    ecDefined s.params (ecOf (esrEl1Entry s r)) = true := by
  rw [esrEl1Entry, ecOf_append]
  split
  · obtain ⟨-, hrank, -⟩ := targetOk_iff.mp (recordProblem_none hp).1
    rw [htarget] at hrank
    obtain ⟨r', d, hp', htarget', -, -, hsyn⟩ := unpredictableSyndrome_allowed s.params (syndromeInputs s) hrank s.draws
    rw [hsyn]
    exact ecDefined_syndrome_at_el1 _ d hp' htarget'
  · exact ecDefined_syndrome_at_el1 _ _ hp htarget

/-- Every content a step can bring in has a defined EC, unless software was let store a reserved one. -/
theorem contentEcDefined_of_newContent {s : State} {c : EsrContent} (h : NewContent s c) : contentEcDefined s.params c := by
  rcases h with rfl | ⟨v, hc⟩ | ⟨s', r, hparams, hp, htarget, rfl⟩
  · trivial
  · rcases contentWritten_cases hc with ⟨rfl, hec | hstore⟩ | ⟨rfl, -, -⟩
    · exact fun _ => by rwa [ecOf_storedBits]
    · exact fun hkept => absurd hstore hkept
    · trivial
  · rw [← hparams] at hp ⊢
    exact fun _ => ecDefined_esrEl1Entry s' hp htarget

/-- Settles O55: the new contents have a defined EC, and the parameters stay. -/
theorem stepKeepsReservedEcInv : Obligations.StepKeepsReservedEcInv := by
  intro s t hinv h
  obtain ⟨hparams, -⟩ := stepKeepsTheParameters s t h
  rw [ReservedEcInv, hparams]
  exact step_allContents hinv (fun _ => contentEcDefined_of_newContent) h

end Sys2Proof.Machine
end
